-- ==== Sys2Proof/Word.lean ====
section
/-! DEFINITION. The words of the part: bytes, card UIDs and keys, the two sides of the lane, and the
enumerations that more than one block names (chapter 12, R203). Plain types and pairing only. -/

namespace Sys2Proof

/-- A byte of a card block, a ring frame or a table image. -/
abbrev Byte := BitVec 8

/-- The 7-byte identifier fixed in a card. -/
abbrev Uid := BitVec 56

/-- A 128-bit key of the Key Store, or a card key derived from one. -/
abbrev Key := BitVec 128

/-- The two sides of the lane: A, the unpaid side, and B, the paid side. Air Channel, Tap Controller,
channel of a source and direction of a grant are all named by a side. -/
inductive Side where
  | a
  | b
deriving DecidableEq, Repr, Inhabited

/-- The side across the lane. -/
def Side.other : Side → Side
  | .a => .b
  | .b => .a

/-- A pair of like units, one for each side. -/
structure Sided (α : Type) where
  a : α
  b : α
deriving DecidableEq, Repr

/-- The unit of one side. -/
def Sided.get {α : Type} (p : Sided α) : Side → α
  | .a => p.a
  | .b => p.b

/-- The pair with the unit of one side replaced. -/
def Sided.set {α : Type} (p : Sided α) (sd : Side) (x : α) : Sided α :=
  match sd with
  | .a => { p with a := x }
  | .b => { p with b := x }

/-- The reasons a CLONE notice carries (R102). -/
inductive CloneReason where
  | contest
  | stateBehind
  | sameState
deriving DecidableEq, Repr, Inhabited

end Sys2Proof
end

