-- ==== Sys2Proof/Syntax.lean ====
section
/-! DEFINITION. The commands of the part: one constructor for each row of spec/opcode_table.json, with
the operands that the event carries into the part (an air answer, a ring frame, a pin level). -/

namespace Sys2Proof

/-- What a correctly framed air answer holds (R9). The byte framing belongs to the RF front-end, so an
answer is given by its form: a UID, a selection acknowledgement, data bytes, ACK or NAK. -/
inductive AirAnswer where
  | uid (u : Uid)
  | selected
  | data (bytes : List Byte)
  | ack
  | nak
deriving DecidableEq, Repr

/-- A report of the RF front-end on an answer window (R10). NONE is no report: it is the expiry of the
answer timer. -/
inductive AirReport where
  | good (answer : AirAnswer)
  | badFrame
  | collision
deriving DecidableEq, Repr

/-- A ring frame as it stands on the line after its delimiter (R205). The length byte is the length of
the payload. The source byte holds the gate in bits 7–4 and the channel in bit 0, the destination byte
the destination in bits 4–0. -/
structure RingFrame where
  kind : Byte
  source : Byte
  dest : Byte
  payload : List Byte
  crc : BitVec 16
deriving DecidableEq, Repr

/-- The three code engines (R184): one for each Air Channel and one for the ring. -/
inductive EngineId where
  | channel (sd : Side)
  | ring
deriving DecidableEq, Repr

/-- The commands of the part, one for each row of the opcode table, in the table's order. A command of
the ring carries the frame received; a protected request carries beside it the level of the KEYLOAD pin
at that instant, because R187 samples the pin at each check. -/
inductive Instr where
  /-- POLL_TIMER_EXPIRY (R17, R21). -/
  | pollTimerExpiry (sd : Side)
  /-- AIR_ANSWER_ARRIVAL (R10). -/
  | airAnswerArrival (sd : Side) (report : AirReport)
  /-- ANSWER_TIMER_EXPIRY (R10). -/
  | answerTimerExpiry (sd : Side)
  /-- FIELD_EMPTY_TIMEOUT (R21). -/
  | fieldEmptyTimeout (sd : Side)
  /-- EXCHANGE_ENDED (R46): HALT has left the front-end of a side. -/
  | exchangeEnded (sd : Side)
  /-- HOTLIST_LOOKUP (R111): the store grant of a side's lookup. -/
  | hotlistLookup (sd : Side)
  /-- FARE_BANK_READ (R174): the store grant of a side's read of its fare bank. -/
  | fareBankRead (sd : Side)
  /-- CODE_ENGINE_DONE (R184); `keyload` is the KEYLOAD pin, sampled by check 4 of R187. -/
  | codeEngineDone (engine : EngineId) (keyload : Bool)
  /-- CLAIM_HOLD_EXPIRY (R38): the write point of a side's transaction. -/
  | claimHoldExpiry (sd : Side)
  /-- SIGHTING_ARRIVAL (R92). -/
  | sightingArrival (f : RingFrame)
  /-- CLONE_NOTICE_ARRIVAL (R103). -/
  | cloneNoticeArrival (f : RingFrame)
  /-- LOCAL_HOTLIST_ADDITION (R113): a UID is offered to the local hotlist. A sender that writes no operand
  offers UID 0. -/
  | localHotlistAddition (u : Uid := 0)
  /-- MERGE_STEP (R116). -/
  | mergeStep
  /-- LOADER_WRITE (R171). -/
  | loaderWrite
  /-- LOADER_READ (R172). -/
  | loaderRead
  /-- ENTER (R130): ENTER_A or ENTER_B, by the side. -/
  | enter (sd : Side)
  /-- PASSED (R131): PASSED_A or PASSED_B, by the side. -/
  | passed (sd : Side)
  /-- CLEAR (R138). -/
  | clear
  /-- FORCED (R136). -/
  | forced
  /-- OCCUPIED_LONG (R136). -/
  | occupiedLong
  /-- PASS_TIMER_EXPIRY (R134). -/
  | passTimerExpiry
  /-- STOP_TIMER_EXPIRY (R143). -/
  | stopTimerExpiry (sd : Side)
  /-- EMERG_ASSERTED (R139). -/
  | emergAsserted
  /-- EMERG_RELEASED (R140). -/
  | emergReleased
  /-- BEACON (R160). -/
  | beacon (f : RingFrame)
  /-- BEACON_WATCH_EXPIRY (R156). -/
  | beaconWatchExpiry
  /-- LINE_TIME_ADVANCE (R161). -/
  | lineTimeAdvance
  /-- FRAME_STRIPPED (R147). -/
  | frameStripped (f : RingFrame)
  /-- FRAME_DROPPED (R146): the bytes from a delimiter to the end of the transmission or to the next
  delimiter, which do not make a good frame. -/
  | frameDropped (bytes : List Byte)
  /-- FRAME_FORWARDED (R153). -/
  | frameForwarded (f : RingFrame)
  /-- RING_OUT_FRAME_END (R154). -/
  | ringOutFrameEnd
  /-- SENT_ENTRY_AGEING (R148). -/
  | sentEntryAgeing
  /-- ANSWER_QUEUE_FULL_DROP (R152). -/
  | answerQueueFullDrop (f : RingFrame)
  /-- DESCRIBE (R175). -/
  | describe (f : RingFrame)
  /-- STATUS (R201). -/
  | status (f : RingFrame)
  /-- COUNTERS (R196). -/
  | counters (f : RingFrame)
  /-- COUNTERS_CLEAR (R196). -/
  | countersClear (f : RingFrame) (keyload : Bool)
  /-- SETUP (R169). -/
  | setup (f : RingFrame) (keyload : Bool)
  /-- GATE with action FREE_ON (R141). -/
  | gateFreeOn (f : RingFrame) (keyload : Bool)
  /-- GATE with action FREE_OFF (R141). -/
  | gateFreeOff (f : RingFrame) (keyload : Bool)
  /-- GATE with action ALARM_RELEASE (R141). -/
  | gateAlarmRelease (f : RingFrame) (keyload : Bool)
  /-- RESTART (R202). -/
  | restart (f : RingFrame) (keyload : Bool)
  /-- LOAD_BEGIN (R170). -/
  | loadBegin (f : RingFrame) (keyload : Bool)
  /-- LOAD_DATA (R171). -/
  | loadData (f : RingFrame) (keyload : Bool)
  /-- LOAD_END (R172). -/
  | loadEnd (f : RingFrame) (keyload : Bool)
  /-- KEY_WRITE (R188). -/
  | keyWrite (f : RingFrame) (keyload : Bool)
  /-- KEY_LOCK (R189). -/
  | keyLock (f : RingFrame) (keyload : Bool)
  /-- UNKNOWN_REQUEST (R198). -/
  | unknownRequest (f : RingFrame)
  /-- NONVOLATILE_WRITE_DONE (R178). -/
  | nonvolatileWriteDone
  /-- WARM_RESTART (R155): the RESTART answer finishes leaving ring-out. -/
  | warmRestart
  /-- RESTART_PERIOD_EXPIRY (R158); `passing` says that a frame is passing on ring-in (R159). -/
  | restartPeriodExpiry (passing : Bool)
  /-- REPEATER_MODE_EXIT (R159): the frame boundary on ring-in. -/
  | repeaterModeExit
  /-- RST_ASSERTED (R158): RST is held, or power arrives. -/
  | rstAsserted
  /-- COLD_START (R150): `gateNo` is the level of the GATE_NO straps, `passing` says that a frame is
  passing on ring-in (R159). -/
  | coldStart (gateNo : BitVec 4) (passing : Bool)
  /-- GATE with an action that is none of the three (R141). -/
  | gateActionBadValue (f : RingFrame) (keyload : Bool)
  /-- POWER_LOSS (R178). -/
  | powerLoss
deriving DecidableEq, Repr

end Sys2Proof
end

