-- ==== Sys2Proof/Machine/Bytes.lean ====
section
/-! DEFINITION. Byte order, fields and the CRC-16 (R146, R203, R205): how numbers stand in the bytes of
card blocks, ring frames and table images, and how a ring frame stands on the line. -/

namespace Sys2Proof.Machine

/-- The number that bytes hold, most significant byte first (R203). -/
def beNat (bytes : List Byte) : Nat :=
  bytes.foldl (fun n b => n * 256 + b.toNat) 0

/-- A number as `width` bytes, most significant byte first (R203). -/
def toBE : Nat → Nat → List Byte
  | 0, _ => []
  | w + 1, n => toBE w (n / 256) ++ [BitVec.ofNat 8 n]

/-- The signed value of a `bits`-wide two's complement field (R203). -/
def signedOf (bits n : Nat) : Int :=
  if n < 2 ^ (bits - 1) then (n : Int) else (n : Int) - 2 ^ bits

/-- A signed number as `width` bytes of two's complement (R203). -/
def toBESigned (width : Nat) (i : Int) : List Byte :=
  toBE width (i % 2 ^ (8 * width)).toNat

/-- The bytes `first` to `last` of a block or payload, numbered from 1 (R203). -/
def bytesOf (l : List Byte) (first last : Nat) : List Byte :=
  (l.drop (first - 1)).take (last + 1 - first)

/-- The number in the bytes `first` to `last` of a block or payload, numbered from 1 (R203). -/
def numOf (l : List Byte) (first last : Nat) : Nat :=
  beNat (bytesOf l first last)

/-- A Bool as a bit. -/
def bitOf (b : Bool) : Nat := if b then 1 else 0

/-- The number whose bit `n` is the `n`-th of the list. -/
def flagBits : List Bool → Nat
  | [] => 0
  | b :: rest => bitOf b + 2 * flagBits rest

/-- The 7 bytes of a UID. -/
def uidBytes (u : Uid) : List Byte := toBE 7 u.toNat

/-- The UID in 7 bytes. -/
def uidOf (bytes : List Byte) : Uid := BitVec.ofNat 56 (beNat bytes)

/-- A side or channel as its code: A 0, B 1 (R203). -/
def sideCode : Side → Nat
  | .a => 0
  | .b => 1

/-- The side that bit 0 of a number names (R203). -/
def sideOfBit (n : Nat) : Side := if n % 2 = 0 then .a else .b

/-- One bit of the CRC register of R146. -/
def crcShift (crc : BitVec 16) : BitVec 16 :=
  if crc.msb then (crc <<< 1) ^^^ 0x1021#16 else crc <<< 1

/-- One byte into the CRC register, most significant bit first (R146). -/
def crcByte (crc : BitVec 16) (b : Byte) : BitVec 16 :=
  (List.range 8).foldl (fun c _ => crcShift c) (crc ^^^ (b.setWidth 16 <<< 8))

/-- The CRC-16 of R146: generator x¹⁶ + x¹² + x⁵ + 1, register from all ones, no inversion. -/
def crc16 (bytes : List Byte) : BitVec 16 :=
  bytes.foldl crcByte 0xFFFF#16

/-- The bytes that the CRC of a frame covers: from the length to the last payload byte (R146, R205). -/
def frameCovered (f : RingFrame) : List Byte :=
  [BitVec.ofNat 8 f.payload.length, f.kind, f.source, f.dest] ++ f.payload

/-- A frame as it stands on the line after its delimiter (R205). -/
def frameWire (f : RingFrame) : List Byte :=
  frameCovered f ++ toBE 2 f.crc.toNat

/-- A frame is good: its length is 0–96 and its CRC is that of R146. -/
def frameGood (f : RingFrame) : Bool :=
  decide (f.payload.length ≤ 96) && decide (f.crc = crc16 (frameCovered f))

/-- The bytes between two delimiters make a good frame (R146): exactly as many payload bytes as the
length byte says, then the CRC over all before it. -/
def goodBytes (bytes : List Byte) : Bool :=
  match bytes with
  | len :: rest =>
    decide (len.toNat ≤ 96) && decide (rest.length = len.toNat + 5) &&
      decide (beNat (rest.drop (len.toNat + 3)) = (crc16 (len :: rest.take (len.toNat + 3))).toNat)
  | [] => false

/-- The source gate of a frame. -/
def frameGate (f : RingFrame) : Nat := f.source.toNat / 16

/-- The channel of a frame's source. -/
def frameChannel (f : RingFrame) : Side := sideOfBit f.source.toNat

/-- The destination of a frame: bits 4–0 of its byte. -/
def frameDest (f : RingFrame) : Nat := f.dest.toNat % 32

/-- A frame this gate originates: source gate and channel, destination, payload, and the CRC of R146. -/
def buildFrame (kind gate : Nat) (chan : Side) (dest : Nat) (payload : List Byte) : RingFrame :=
  let f : RingFrame :=
    { kind := BitVec.ofNat 8 kind, source := BitVec.ofNat 8 (gate * 16 + sideCode chan)
      dest := BitVec.ofNat 8 dest, payload := payload, crc := 0 }
  { f with crc := crc16 (frameCovered f) }

/-- The kind codes of frames (R203). -/
def kindBeacon : Nat := 1
def kindSighting : Nat := 2
def kindNotice : Nat := 3
def kindJournal : Nat := 4
def kindRequest : Nat := 5
def kindAnswer : Nat := 6

end Sys2Proof.Machine
end

