-- ==== Sys2Proof/Machine/Cipher.lean ====
section
/-! DEFINITION. The block cipher AES-128 and the CMAC construction over it. R180 and R181 name them as
the public standards and do not restate them: their text here is PRESUMED from those standards (FIPS 197
and NIST SP 800-38B; assumption log 9), and the standards' own worked values are in the tests. -/

namespace Sys2Proof.Machine

/-- The AES substitution table, one numeral a row of 16 bytes, the first byte the most significant. -/
def sboxRows : List Nat :=
  [0x637c777bf26b6fc53001672bfed7ab76, 0xca82c97dfa5947f0add4a2af9ca472c0,
   0xb7fd9326363ff7cc34a5e5f171d83115, 0x04c723c31896059a071280e2eb27b275,
   0x09832c1a1b6e5aa0523bd6b329e32f84, 0x53d100ed20fcb15b6acbbe394a4c58cf,
   0xd0efaafb434d338545f9027f503c9fa8, 0x51a3408f929d38f5bcb6da2110fff3d2,
   0xcd0c13ec5f974417c4a77e3d645d1973, 0x60814fdc222a908846eeb814de5e0bdb,
   0xe0323a0a4906245cc2d3ac629195e479, 0xe7c8376d8dd54ea96c56f4ea657aae08,
   0xba78252e1ca6b4c6e8dd741f4bbd8b8a, 0x703eb5664803f60e613557b986c11d9e,
   0xe1f8981169d98e949b1e87e9ce5528df, 0x8ca1890dbfe6426841992d0fb054bb16]

/-- The AES substitution of one byte. -/
def subByte (b : Byte) : Byte :=
  BitVec.ofNat 8 ((sboxRows.getD (b.toNat / 16) 0) >>> (8 * (15 - b.toNat % 16)))

/-- Bytewise exclusive or of two byte strings of one length. -/
def xorBytes (x y : List Byte) : List Byte :=
  List.zipWith (fun a b => a ^^^ b) x y

/-- Multiplication by x in the AES field. -/
def xtime (b : Byte) : Byte :=
  if b.msb then (b <<< 1) ^^^ 0x1b#8 else b <<< 1

/-- Rows shifted in a state held column by column: byte 4c + r comes from column c + r. -/
def shiftRows (st : List Byte) : List Byte :=
  (List.range 16).map (fun i => st.getD ((i + 4 * (i % 4)) % 16) 0)

/-- One column mixed. -/
def mixColumn : List Byte → List Byte
  | [p, q, r, t] =>
    [xtime p ^^^ (xtime q ^^^ q) ^^^ r ^^^ t,
     p ^^^ xtime q ^^^ (xtime r ^^^ r) ^^^ t,
     p ^^^ q ^^^ xtime r ^^^ (xtime t ^^^ t),
     (xtime p ^^^ p) ^^^ q ^^^ r ^^^ xtime t]
  | l => l

/-- The four columns mixed. -/
def mixColumns (st : List Byte) : List Byte :=
  mixColumn (bytesOf st 1 4) ++ mixColumn (bytesOf st 5 8) ++
    mixColumn (bytesOf st 9 12) ++ mixColumn (bytesOf st 13 16)

/-- The round key after one, under its round constant. -/
def nextRoundKey (key : List Byte) (rcon : Byte) : List Byte :=
  let w0 := bytesOf key 1 4
  let w1 := bytesOf key 5 8
  let w2 := bytesOf key 9 12
  let w3 := bytesOf key 13 16
  let turned := (w3.drop 1 ++ w3.take 1).map subByte
  let n0 := xorBytes (xorBytes w0 turned) [rcon, 0, 0, 0]
  let n1 := xorBytes w1 n0
  let n2 := xorBytes w2 n1
  n0 ++ n1 ++ n2 ++ xorBytes w3 n2

/-- The rounds of AES-128, one for each round constant left; the last round mixes no columns. -/
def aesRounds : List Byte → List Byte → List Byte → List Byte
  | [], _, st => st
  | rcon :: rest, key, st =>
    let key' := nextRoundKey key rcon
    let moved := shiftRows (st.map subByte)
    aesRounds rest key' (xorBytes (if rest.isEmpty then moved else mixColumns moved) key')

/-- AES-128 of one 16-byte block (R180, R181). -/
def aes128 (key : Key) (block : List Byte) : List Byte :=
  let k := toBE 16 key.toNat
  aesRounds [0x01, 0x02, 0x04, 0x08, 0x10, 0x20, 0x40, 0x80, 0x1b, 0x36] k (xorBytes block k)

/-- Doubling in the field of the CMAC subkeys. -/
def cmacDouble (x : BitVec 128) : BitVec 128 :=
  if x.msb then (x <<< 1) ^^^ 0x87#128 else x <<< 1

/-- The chain of CMAC over a message; `fuel` bounds the blocks by the bytes of the message. -/
def cmacChain (key : Key) (k1 k2 : List Byte) : Nat → List Byte → List Byte → List Byte
  | 0, acc, _ => acc
  | fuel + 1, acc, msg =>
    if 16 < msg.length then
      cmacChain key k1 k2 fuel (aes128 key (xorBytes acc (msg.take 16))) (msg.drop 16)
    else if msg.length = 16 then
      aes128 key (xorBytes acc (xorBytes msg k1))
    else
      aes128 key (xorBytes acc (xorBytes (msg ++ [0x80] ++ List.replicate (15 - msg.length) 0) k2))

/-- The keyed code function of R181: CMAC over AES-128, 16 bytes. -/
def cmac (key : Key) (msg : List Byte) : List Byte :=
  let zero : List Byte := List.replicate 16 0
  let k1 := cmacDouble (BitVec.ofNat 128 (beNat (aes128 key zero)))
  cmacChain key (toBE 16 k1.toNat) (toBE 16 (cmacDouble k1).toNat) (msg.length + 1) zero msg

/-- The first `n` bytes of the code of an input (R181). -/
def codeOf (n : Nat) (key : Key) (input : List Byte) : List Byte :=
  (cmac key input).take n

/-- The card key derived from a master key for a UID (R180). -/
def cardKey (master : Key) (u : Uid) : Key :=
  BitVec.ofNat 128 (beNat (aes128 master (uidBytes u ++ [0x80] ++ List.replicate 8 0)))

/-- The identity code of the first 12 bytes of a block 0 (R182). -/
def identityCode (codeKey : Key) (u : Uid) (block0 : List Byte) : List Byte :=
  codeOf 4 codeKey (uidBytes u ++ block0.take 12)

/-- The record code of the first 24 bytes of a journey record in the slot of a number, 1 for slot A and
2 for slot B (R182). -/
def recordCode (codeKey : Key) (u : Uid) (slotNumber : Nat) (record : List Byte) : List Byte :=
  codeOf 8 codeKey (uidBytes u ++ [BitVec.ofNat 8 slotNumber] ++ record.take 24)

end Sys2Proof.Machine
end

