-- ==== Sys2Proof/Machine/State.lean ====
section
/-! DEFINITION. The state of the part, block by block as the block diagram of spec/00_scope.md names
them, with the reset state, the faults and the refusals. Plain data throughout. A timer of the local
timer is an `Option Nat`: `none` when stopped, `some n` with `n` milliseconds left. -/

namespace Sys2Proof.Machine

/-! ### Air Channels (chapter 1) -/

/-- The four states of an Air Channel (R15). -/
inductive ChanState where
  | off
  | polling
  | engaged
  | awaitRemoval
deriving DecidableEq, Repr

/-- The six air commands (R9). AUTH is two commands, one for each pass (R11). -/
inductive AirCommand where
  | wake
  | select (uid : Uid)
  | read (block : Nat)
  | authFirst
  | authSecond (response challenge : List Byte)
  | write (block : Nat) (data : List Byte)
  | halt
deriving DecidableEq, Repr

/-- A command outstanding at a channel with its attempt number, 1 or 2 (section 1.7). -/
structure Outstanding where
  cmd : AirCommand
  attempt : Nat
deriving DecidableEq, Repr

/-- What an Air Channel holds (section 1.7). The answer window is open while the answer timer runs. The
field-empty timer counts up from 0; the others count down. -/
structure Channel where
  state : ChanState
  outstanding : Option Outstanding
  answerTimer : Option Nat
  pollTimer : Option Nat
  fieldEmpty : Option Nat
  lost : Bool
deriving DecidableEq, Repr

/-! ### Sightings (chapter 5) -/

/-- The four kinds of sighting (R87). -/
inductive SightKind where
  | intent
  | commit
  | torn
  | unused
deriving DecidableEq, Repr

/-- The source of a sighting or notice: gate number and channel (R88). -/
structure Source where
  gate : Nat
  chan : Side
deriving DecidableEq, Repr

/-- A sighting: one card state seen at one gate (R87). -/
structure Sighting where
  uid : Uid
  kind : SightKind
  base : Nat
  result : Nat
  source : Source
  side : Side
  time : Nat
deriving DecidableEq, Repr

/-- A sighting that an own INTENT has displaced, with its contested flag (R89). -/
structure Displaced where
  sighting : Sighting
  contested : Bool
deriving DecidableEq, Repr

/-- An entry of the Sighting Table (R89). The table is a list in order of insertion (R91). -/
structure SightEntry where
  sighting : Sighting
  contested : Bool
  pin : Bool
  displaced : Option Displaced
deriving DecidableEq, Repr

/-- The reasons of a clone finding or action: the three of R98, and the double reuse of R94. -/
inductive FindingReason where
  | contest
  | stateBehind
  | sameState
  | doubleReuse
deriving DecidableEq, Repr

/-- A CLONE notice (R102). -/
structure Notice where
  uid : Uid
  tc : Nat
  reason : CloneReason
  source : Source
deriving DecidableEq, Repr

/-! ### Tap Controllers (chapter 2) -/

/-- The ten states of a Tap Controller (R24). -/
inductive TapState where
  | idle
  | selecting
  | identifying
  | authenticating
  | reading
  | deciding
  | claiming
  | writing
  | confirming
  | finishing
deriving DecidableEq, Repr

/-- The two journey slots of a card (R4). -/
inductive SlotId where
  | a
  | b
deriving DecidableEq, Repr

/-- The three classes of a journey slot (R5). -/
inductive SlotClass where
  | uncoded
  | codedBad
  | valid
deriving DecidableEq, Repr

/-- The refusal codes (R203). -/
inductive RefusalCode where
  | noCardApp
  | noKey
  | authFail
  | codeFail
  | badRecord
  | cardBlocked
  | hotlisted
  | cardExpired
  | cardExhausted
  | passback
  | lowBalance
  | insufficient
  | cloneSuspect
  | gateBusy
  | lineBusy
  | journalFull
  | cardLost
deriving DecidableEq, Repr

/-- The accept kinds (outcome table of chapter 2). -/
inductive AcceptKind where
  | entry
  | exit
  | reuse
  | recovered
deriving DecidableEq, Repr

/-- The decision flags of the Fare Unit (R50). -/
structure FareFlags where
  zoneClamped : Bool
  capApplied : Bool
  penalty : Bool
  transfer : Bool
deriving DecidableEq, Repr

/-- An accepting decision: its kind, charge, balance after, flags, and the TC before and after (R43). -/
structure Decision where
  accept : AcceptKind
  fare : Nat
  balanceAfter : Int
  flags : FareFlags
  baseTc : Nat
  resultTc : Nat
deriving DecidableEq, Repr

/-- The classes of a recovery (R78). -/
inductive RecoveryClass where
  | committed
  | notLanded
  | other
deriving DecidableEq, Repr

/-- A listed card's action (R108). -/
inductive HotAction where
  | refuse
  | block
deriving DecidableEq, Repr

/-- The answer of a hotlist lookup: the action when listed, and the version of the view (R111). -/
structure HotAnswer where
  action : Option HotAction
  version : Nat
deriving DecidableEq, Repr

/-- A subset of the two blocks of the target slot: the confirmed and rewritten sets (R25). -/
structure BlockSet where
  first : Bool
  second : Bool
deriving DecidableEq, Repr

/-- The two fare banks (R166). -/
inductive BankId where
  | x
  | y
deriving DecidableEq, Repr

/-- The transaction record (R25). Its side is that of the controller. `blocks` holds blocks 1 to 4 as
far as they have been read. The last five fields are the model's working state of the AUTH passes, the
recovery's saved images being in `journeyImage` and `historyImage`, and of the transaction's INTENT. -/
structure TapRecord where
  uid : Option Uid
  block0 : Option (List Byte)
  authKey : Option Key
  codeKey : Option Key
  blocks : List (List Byte)
  classA : Option SlotClass
  classB : Option SlotClass
  validSlot : Option SlotId
  target : Option SlotId
  cardTc : Option Nat
  decisionTime : Option Nat
  bank : Option BankId
  fareVersion : Option Nat
  hotlist : Option HotAnswer
  recovery : Option RecoveryClass
  decision : Option Decision
  refusal : Option RefusalCode
  holdsGrant : Bool
  holdsJournal : Bool
  holdsInsertion : Bool
  journeyImage : Option (List Byte)
  historyImage : Option (List Byte)
  block0Image : Option (List Byte)
  confirmed : BlockSet
  rewritten : BlockSet
  cloneMark : Option FindingReason
  cardChallenge : List Byte
  partChallenge : List Byte
  cardResponse : List Byte
  intent : Option Sighting
deriving DecidableEq, Repr

/-- The empty transaction record. -/
def TapRecord.empty : TapRecord :=
  { uid := none, block0 := none, authKey := none, codeKey := none, blocks := []
    classA := none, classB := none, validSlot := none, target := none, cardTc := none
    decisionTime := none, bank := none, fareVersion := none, hotlist := none, recovery := none
    decision := none, refusal := none
    holdsGrant := false, holdsJournal := false, holdsInsertion := false
    journeyImage := none, historyImage := none, block0Image := none
    confirmed := ⟨false, false⟩, rewritten := ⟨false, false⟩, cloneMark := none
    cardChallenge := [], partChallenge := [], cardResponse := [], intent := none }

/-- A Tap Controller: its state, whether it has asked HALT and waits for the exchange-ended event
(R24), its claim hold (R38) and its transaction record. -/
structure Tap where
  state : TapState
  ending : Bool
  hold : Option Nat
  record : TapRecord
deriving DecidableEq, Repr

/-! ### Code engines and key slots (chapter 10) -/

/-- The fields of a history entry (R68), as the Fare Unit's accept gives them. -/
structure HistoryFields where
  kind : Nat
  station : Nat
  time : Nat
  amount : Nat
  balanceAfter : Int
  tcAfter : Nat
deriving DecidableEq, Repr

/-- What a channel engine computes (R184, R182, R183): a key derivation with the master keys taken at
AUTHENTICATING entry, or a code. The composition of R69 goes on when its record code is computed, with the
24 bytes built and, for an exit, the fields of the history image. -/
inductive ChanJob where
  | deriveAuth (authMaster codeMaster : Key)
  | deriveCode (codeMaster : Key)
  | partResponse
  | cardResponse
  | slotCode (slot : SlotId)
  | identity
  | compose (record : List Byte) (history : Option HistoryFields)
  | blockIdentity
deriving DecidableEq, Repr

/-- What the ring engine computes (R184, R185), under the line key looked up for it. A table code is
computed as the reads of the image arrive; `read` is what has arrived. -/
inductive RingJob where
  | lineCode (key : Key)
  | tableCode (key : Key) (read : List Byte)
deriving DecidableEq, Repr

/-- The roles of a key (R178). -/
inductive KeyRole where
  | cardAuth
  | cardCode
  | line
deriving DecidableEq, Repr

/-- The contents of a key slot that is not EMPTY (R178). -/
structure KeyEntry where
  key : Key
  role : KeyRole
  version : Nat
deriving DecidableEq, Repr

/-- A key slot (R178). Key, role and version have meaning only in LOADED and LOCKED. -/
inductive KeySlot where
  | empty
  | loaded (e : KeyEntry)
  | locked (e : KeyEntry)
deriving DecidableEq, Repr

/-! ### Recovery Table (chapter 4) -/

/-- A tear context (R70). Its decision kind is that of its side. The Recovery Table is a list in order
of creation. -/
structure Context where
  uid : Uid
  side : Side
  cls : Nat
  baseTc : Nat
  target : SlotId
  journeyImage : List Byte
  historyImage : Option (List Byte)
  confirmed : BlockSet
  fare : Nat
  balanceAfter : Int
  flags : FareFlags
  created : Nat
  deadline : Nat
  holder : Option Side
  overdue : Bool
deriving DecidableEq, Repr

/-! ### Hotlist Store (chapter 6) -/

/-- An entry of the main hotlist (R108). -/
structure HotEntry where
  uid : Uid
  action : HotAction
deriving DecidableEq, Repr

/-- An operation of the delta list (R109). -/
inductive DeltaOp where
  | add (uid : Uid) (action : HotAction)
  | remove (uid : Uid)
deriving DecidableEq, Repr

/-- The two hotlist banks (R108). -/
inductive HotBank where
  | zero
  | one
deriving DecidableEq, Repr

/-- The conditions of the shadow (R108). -/
inductive ShadowCond where
  | free
  | mergingInto
  | loading
deriving DecidableEq, Repr

/-- The conditions of the delta list (R109). -/
inductive DeltaCond where
  | absent
  | receiving
  | present
deriving DecidableEq, Repr

/-- The states of the Merge Engine (R116). -/
inductive MergeState where
  | idle
  | merging
  | suspended
deriving DecidableEq, Repr

/-- The Hotlist Store. `image` holds the bytes that a hotlist load has written to its destination, the
shadow or the delta list, before their acceptance. `mergeEntries` and `mergeOps` are the inputs of the
merge not yet taken (R116). `waiting` holds the additions offered while a store grant is in use (R174).-/
structure Hotlist where
  bank0 : List HotEntry
  bank1 : List HotEntry
  active : HotBank
  version : Nat
  shadow : ShadowCond
  deltaCond : DeltaCond
  deltaOps : List DeltaOp
  deltaBase : Nat
  deltaNew : Nat
  image : List Byte
  merge : MergeState
  mergeEntries : List HotEntry
  mergeOps : List DeltaOp
  localList : List Uid
  localFull : Bool
  waiting : List Uid
deriving DecidableEq, Repr

/-! ### Table Store (chapter 9) -/

/-- The states of a fare bank (R166). -/
inductive BankState where
  | empty
  | pending
  | active
  | draining
deriving DecidableEq, Repr

/-- A fare bank (R166). The image is the bytes as LOAD_DATA wrote them. -/
structure Bank where
  state : BankState
  image : List Byte
  version : Nat
  activation : Nat
  refs : Nat
deriving DecidableEq, Repr

/-- The Table Store's copy of the active parameters (R168). -/
structure ActiveParams where
  version : Nat
  activation : Nat
  passWindow : Nat
  reuseWindow : Nat
  retention : Nat
deriving DecidableEq, Repr

/-- The gate modes (R124). -/
inductive GateMode where
  | entry
  | exit
  | both
deriving DecidableEq, Repr

/-- The service field of the line setup record (R169). -/
inductive Service where
  | inService
  | outService
deriving DecidableEq, Repr

/-- The line setup record (R169). -/
structure LineSetup where
  station : Nat
  zone : Nat
  mode : GateMode
  service : Service
deriving DecidableEq, Repr

/-- The fare banks, the copy of the active parameters and the line setup record. -/
structure TableStore where
  bankX : Bank
  bankY : Bank
  params : Option ActiveParams
  setup : Option LineSetup
deriving DecidableEq, Repr

/-- The kinds of a load (R170). -/
inductive LoadKind where
  | fare
  | full
  | delta
deriving DecidableEq, Repr

/-- Where a load stands: taking LOAD_DATA, or in the steps of its LOAD_END (R172). `code` and
`contents` count the image bytes read so far, `room` the operations looked up; `coding` waits for the
ring engine to end the code of the image read. -/
inductive LoadPhase where
  | data
  | code (read : Nat)
  | coding
  | contents (read : Nat)
  | room (done : Nat)
deriving DecidableEq, Repr

/-- The loader in RECEIVING (R170); the bank is the destination of a FARE load. -/
structure Loading where
  kind : LoadKind
  bank : BankId
  length : Nat
  received : Nat
  phase : LoadPhase
deriving DecidableEq, Repr

/-- What a Tap Controller asks of the store arbiter: a hotlist lookup (check 4), or a read of its fare
bank for check 1, 5, 9 or 10 (R174). `check11` is the grant in whose event a reuse that check 9 has found
goes on to check 11 and its commit, an event of its own after the test (R104; assumption log 49). -/
inductive TapAsk where
  | lookup
  | check1
  | check5
  | check9
  | check10
  | check11
deriving DecidableEq, Repr

/-- What the loader asks of the store arbiter (R174). -/
inductive LoaderAsk where
  | write (data : List Byte)
  | read
deriving DecidableEq, Repr

/-- A grant in use (R174). -/
inductive StoreGrant where
  | tap (sd : Side) (ask : TapAsk)
  | loader (ask : LoaderAsk)
  | merge
deriving DecidableEq, Repr

/-- The store arbiter (R174): the requests waiting, the grant in use and the alternation mark. -/
structure Arbiter where
  tap : Sided (Option TapAsk)
  loader : Option LoaderAsk
  merge : Bool
  inUse : Option StoreGrant
  mark : Side
deriving DecidableEq, Repr

/-! ### Gate Controller (chapter 7) -/

/-- The alarm kinds (R125). -/
inductive AlarmKind where
  | tailgate
  | intrusion
  | obstructed
  | forced
deriving DecidableEq, Repr

/-- The gate states (R125). OPEN and PASSING name their direction by its entry side: A for A→B, B for
B→A (R124). -/
inductive GateState where
  | outOfService
  | closed
  | opened (dir : Side)
  | passing (dir : Side)
  | alarm (kind : AlarmKind)
  | free
deriving DecidableEq, Repr

/-- A grant (R127). Its direction is that of its side (R124). -/
structure Grant where
  side : Side
  uid : Uid
  cls : Nat
  tc : Nat
  entered : Bool
deriving DecidableEq, Repr

/-- The pass timer (R133). -/
inductive PassTimer where
  | stopped
  | running (left : Nat)
  | paused (left : Nat)
deriving DecidableEq, Repr

/-- The categories of a STOP display (outcome table of chapter 2). -/
inductive StopCategory where
  | seeAgent
  | tapAgain
  | addValue
  | wait
  | closed
deriving DecidableEq, Repr

/-- A running STOP timer with its category (R143). -/
structure StopTimer where
  left : Nat
  category : StopCategory
deriving DecidableEq, Repr

/-- The leaf commands (R142); an open command names the side it opens toward. -/
inductive LeafCommand where
  | close
  | openToward (sd : Side)
  | free
deriving DecidableEq, Repr

/-- What a side indicator shows (R143). -/
inductive Indicator where
  | ready
  | wait
  | go
  | stop (category : StopCategory)
  | closed
  | free
deriving DecidableEq, Repr

/-- What the leaf commands follow: the gate state (R142), and the alarm, at whose raising and clearing they
are given too (R136, R138). -/
structure LeafCause where
  state : GateState
  alarm : Option AlarmKind
deriving DecidableEq, Repr

/-- The Gate Controller (R125). The gate state is derived from these items. `leaf` is the command last given
to the leaf drive, and `leafGiven` every command given since the cold start, in order (R142). `leafCause` is
what the commands followed at the end of the last event (assumption log 39). -/
structure Gate where
  alarm : Option AlarmKind
  freeFlag : Bool
  queue : List Grant
  reserved : Nat
  occupancy : Nat
  passTimer : PassTimer
  stopTimer : Sided (Option StopTimer)
  leaf : LeafCommand
  leafGiven : List LeafCommand
  leafCause : LeafCause
  indicator : Sided Indicator
deriving DecidableEq, Repr

/-! ### Line Ring and Line Clock (chapter 8) -/

/-- A frame of the insertion queue: a sighting or a CLONE notice (R97). -/
inductive LineMsg where
  | sighting (s : Sighting)
  | notice (n : Notice)
deriving DecidableEq, Repr

/-- The source a frame on ring-out was taken from (R154). -/
inductive RingOrigin where
  | forward
  | insertion
  | answer
  | journal
deriving DecidableEq, Repr

/-- A frame leaving ring-out. -/
structure Sending where
  frame : RingFrame
  origin : RingOrigin
deriving DecidableEq, Repr

/-- An entry of the last-16 sent list (R148). -/
structure SentEntry where
  kind : Byte
  length : Nat
  crc : BitVec 16
  sentAt : Nat
deriving DecidableEq, Repr

/-- The Ring Interface (R148 to R162). `held` and `filled` are the places of the answer queue,
`intentReserved` the INTENT reservations of the insertion queue. `repeater` says that ring-in is being
repeated; `restartPeriod` is the 2 ms period of a warm restart. -/
structure Ring where
  gateNo : Nat
  forward : List RingFrame
  insertion : List LineMsg
  intentReserved : Nat
  held : Nat
  filled : List RingFrame
  sending : Option Sending
  sent : List SentEntry
  duplicate : Bool
  joined : Bool
  watch : Option Nat
  repeater : Bool
  restartPeriod : Option Nat
deriving DecidableEq, Repr

/-- The Line Clock (section 8.7). -/
structure Clock where
  lineTime : Nat
  isSet : Bool
  hold : Bool
  phase : Nat
  localMs : Nat
deriving DecidableEq, Repr

/-! ### Management Decoder (chapter 11) -/

/-- The requests (section 11.6). -/
inductive Request where
  | describe
  | status
  | counters
  | countersClear
  | setup
  | gate
  | restart
  | loadBegin
  | loadData
  | loadEnd
  | keyWrite
  | keyLock
deriving DecidableEq, Repr

/-- The answer codes (R203). -/
inductive AnswerCode where
  | done
  | unprotected
  | stale
  | noStrap
  | busy
  | badSequence
  | tableInvalid
  | versionMismatch
  | slotLocked
  | badValue
  | unknown
deriving DecidableEq, Repr

/-- A request in hand (R199): what its line code covers (R185), the line code carried, and whether it
was judged coded or accepted uncoded (R187). -/
structure InHand where
  request : Request
  dest : Nat
  time : Nat
  params : List Byte
  code : List Byte
  coded : Bool
deriving DecidableEq, Repr

/-- The states of the Management Decoder (R199). -/
inductive DecoderState where
  | idle
  | working
  | restartPending
deriving DecidableEq, Repr

/-- A change of a key slot under way in the nonvolatile store (R178). -/
structure SlotChange where
  slot : Nat
  after : KeySlot
deriving DecidableEq, Repr

/-- The Management Decoder, with the key slot change that its request waits for. -/
structure Decoder where
  state : DecoderState
  inHand : Option InHand
  change : Option SlotChange
deriving DecidableEq, Repr

/-! ### Journal Queue (chapter 11) -/

/-- The journal kinds (R190). -/
inductive JournalKind where
  | entry
  | exit
  | reuse
  | recovered
  | unused
  | refused
  | torn
  | blocked
deriving DecidableEq, Repr

/-- The journal flags (R203). -/
structure JournalFlags where
  fare : FareFlags
  historyMissed : Bool
  unconfirmed : Bool
  emergency : Bool
deriving DecidableEq, Repr

/-- A journal record (R190), with its open mark (R193). -/
structure JournalRecord where
  kind : JournalKind
  sequence : Nat
  uid : Uid
  cls : Nat
  side : Side
  station : Nat
  gate : Nat
  lineTime : Nat
  refusal : Option RefusalCode
  tcBefore : Option Nat
  tcAfter : Option Nat
  fare : Option Nat
  balanceAfter : Option Int
  fareVersion : Option Nat
  hotVersion : Option Nat
  flags : JournalFlags
  isOpen : Bool
deriving DecidableEq, Repr

/-- The ten counters (R195). -/
structure Counters where
  entries : Nat
  exits : Nat
  reuses : Nat
  recoveries : Nat
  refusals : Nat
  cloneRefusals : Nat
  unused : Nat
  passages : Nat
  unrecorded : Nat
  fareTotal : Nat
deriving DecidableEq, Repr

/-- The Journal Queue (R191, R192, R195). -/
structure Journal where
  records : List JournalRecord
  reserved : Nat
  nextSequence : Nat
  counters : Counters
deriving DecidableEq, Repr

/-! ### The machine -/

/-- Whether the part runs, is held by RST or its power-on reset, or has no power (R158, R178). -/
inductive Power where
  | off
  | held
  | running
deriving DecidableEq, Repr

/-- The state of the part. `pending` is the queue of commands waiting, first in, first out. `emerg` and
`keyload` are the levels of those pins. `draws` counts the free values taken so far (the model's own
field, assumption log 6). -/
structure State where
  pending : List Instr
  power : Power
  emerg : Bool
  keyload : Bool
  chans : Sided Channel
  taps : Sided Tap
  engines : Sided (Option ChanJob)
  ringEngine : Option RingJob
  contexts : List Context
  sightings : List SightEntry
  hot : Hotlist
  store : TableStore
  loader : Option Loading
  arb : Arbiter
  gate : Gate
  ring : Ring
  clock : Clock
  decoder : Decoder
  journal : Journal
  keys : Vector KeySlot 8
  draws : Nat
deriving DecidableEq, Repr

/-- The faults of the machine: none. Every command of this block has an effect on every state, so no
meaning stops the machine with a fault, and the type has no constructor. -/
inductive Fault where
deriving DecidableEq, Repr

/-- The refusals of the machine. -/
inductive Refusal where
  /-- Raised by an arm of `exec` for a command that has no meaning yet (safe). No arm raises it. -/
  | notModelled (mnemonic : String)
deriving DecidableEq, Repr

/-- An Air Channel after cold start (R22). -/
def Channel.cold : Channel :=
  { state := .off, outstanding := none, answerTimer := none, pollTimer := none, fieldEmpty := none
    lost := false }

/-- A Tap Controller after cold start (R25). -/
def Tap.cold : Tap :=
  { state := .idle, ending := false, hold := none, record := TapRecord.empty }

/-- A fare bank after cold start (R176). The image, version and activation of an EMPTY bank are the model's
choice (R166, assumption log 57). -/
def Bank.cold : Bank :=
  { state := .empty, image := [], version := 0, activation := 0, refs := 0 }

/-- The counters at 0 (R197). -/
def Counters.zero : Counters :=
  { entries := 0, exits := 0, reuses := 0, recoveries := 0, refusals := 0, cloneRefusals := 0
    unused := 0, passages := 0, unrecorded := 0, fareTotal := 0 }

/-- The state right after cold start (R22, R25, R85, R106, R123, R144, R162, R163, R176, R184, R197,
R200), of a part as it leaves manufacture (R178), strapped to gate number 1, with EMERG and KEYLOAD not
asserted and no frame passing on ring-in (assumption log 4). The base and the new version of the ABSENT delta
list, which the manual does not give, are 0 (assumption log 54), and the FREE shadow, whose contents are
without meaning, is empty (R108, assumption log 59). -/
def State.reset : State :=
  { pending := []
    power := .running
    emerg := false
    keyload := false
    chans := ⟨Channel.cold, Channel.cold⟩
    taps := ⟨Tap.cold, Tap.cold⟩
    engines := ⟨none, none⟩
    ringEngine := none
    contexts := []
    sightings := []
    hot :=
      { bank0 := [], bank1 := [], active := .zero, version := 0, shadow := .free
        deltaCond := .absent, deltaOps := [], deltaBase := 0, deltaNew := 0, image := []
        merge := .idle, mergeEntries := [], mergeOps := [], localList := [], localFull := false
        waiting := [] }
    store := { bankX := Bank.cold, bankY := Bank.cold, params := none, setup := none }
    loader := none
    arb := { tap := ⟨none, none⟩, loader := none, merge := false, inUse := none, mark := .a }
    gate :=
      { alarm := none, freeFlag := false, queue := [], reserved := 0, occupancy := 0
        passTimer := .stopped, stopTimer := ⟨none, none⟩, leaf := .close, leafGiven := [.close]
        leafCause := ⟨.outOfService, none⟩, indicator := ⟨.closed, .closed⟩ }
    ring :=
      { gateNo := 1, forward := [], insertion := [], intentReserved := 0, held := 0, filled := []
        sending := none, sent := [], duplicate := false, joined := false, watch := none
        repeater := false, restartPeriod := none }
    clock := { lineTime := 0, isSet := false, hold := false, phase := 0, localMs := 0 }
    decoder := { state := .idle, inHand := none, change := none }
    journal := { records := [], reserved := 0, nextSequence := 0, counters := Counters.zero }
    keys := Vector.replicate 8 .empty
    draws := 0 }

end Sys2Proof.Machine
end

