-- ==== Sys2Proof/Machine/Formats.lean ====
section
/-! DEFINITION. The formats of chapter 12: codes of the enumerated fields (R203), card blocks (R204), the
payloads of ring frames (R205, R206) and the request envelope (R207). -/

namespace Sys2Proof.Machine

/-! ### Enumerated fields (R203) -/

def sightKindCode : SightKind → Nat
  | .intent => 1
  | .commit => 2
  | .torn => 3
  | .unused => 4

def sightKindOf : Nat → Option SightKind
  | 1 => some .intent
  | 2 => some .commit
  | 3 => some .torn
  | 4 => some .unused
  | _ => none

def cloneReasonCode : CloneReason → Nat
  | .contest => 1
  | .stateBehind => 2
  | .sameState => 3

def journalKindCode : JournalKind → Nat
  | .entry => 1
  | .exit => 2
  | .reuse => 3
  | .recovered => 4
  | .unused => 5
  | .refused => 6
  | .torn => 7
  | .blocked => 8

def refusalNumber : RefusalCode → Nat
  | .noCardApp => 1
  | .noKey => 2
  | .authFail => 3
  | .codeFail => 4
  | .badRecord => 5
  | .cardBlocked => 6
  | .hotlisted => 7
  | .cardExpired => 8
  | .cardExhausted => 9
  | .passback => 10
  | .lowBalance => 11
  | .insufficient => 12
  | .cloneSuspect => 13
  | .gateBusy => 14
  | .lineBusy => 15
  | .journalFull => 16
  | .cardLost => 17

def requestCode : Request → Nat
  | .describe => 1
  | .status => 2
  | .counters => 3
  | .countersClear => 4
  | .setup => 5
  | .gate => 6
  | .restart => 7
  | .loadBegin => 8
  | .loadData => 9
  | .loadEnd => 10
  | .keyWrite => 11
  | .keyLock => 12

def answerNumber : AnswerCode → Nat
  | .done => 0
  | .unprotected => 1
  | .stale => 2
  | .noStrap => 3
  | .busy => 4
  | .badSequence => 5
  | .tableInvalid => 6
  | .versionMismatch => 7
  | .slotLocked => 8
  | .badValue => 9
  | .unknown => 10

def gateModeOf : Nat → Option GateMode
  | 1 => some .entry
  | 2 => some .exit
  | 3 => some .both
  | _ => none

def gateModeCode : GateMode → Nat
  | .entry => 1
  | .exit => 2
  | .both => 3

def serviceOf : Nat → Option Service
  | 1 => some .inService
  | 2 => some .outService
  | _ => none

def serviceCode : Service → Nat
  | .inService => 1
  | .outService => 2

def loadKindOf : Nat → Option LoadKind
  | 1 => some .fare
  | 2 => some .full
  | 3 => some .delta
  | _ => none

def loadKindCode : LoadKind → Nat
  | .fare => 1
  | .full => 2
  | .delta => 3

def keyRoleOf : Nat → Option KeyRole
  | 1 => some .cardAuth
  | 2 => some .cardCode
  | 3 => some .line
  | _ => none

def keyRoleCode : KeyRole → Nat
  | .cardAuth => 1
  | .cardCode => 2
  | .line => 3

def hotActionOf : Nat → Option HotAction
  | 1 => some .refuse
  | 2 => some .block
  | _ => none

def alarmCode : Option AlarmKind → Nat
  | none => 0
  | some .tailgate => 1
  | some .intrusion => 2
  | some .obstructed => 3
  | some .forced => 4

def gateStateCode : GateState → Nat
  | .outOfService => 0
  | .closed => 1
  | .opened .a => 2
  | .opened .b => 3
  | .passing .a => 4
  | .passing .b => 5
  | .alarm _ => 6
  | .free => 7

def chanStateCode : ChanState → Nat
  | .off => 0
  | .polling => 1
  | .engaged => 2
  | .awaitRemoval => 3

def tapStateCode : TapState → Nat
  | .idle => 0
  | .selecting => 1
  | .identifying => 2
  | .authenticating => 3
  | .reading => 4
  | .deciding => 5
  | .claiming => 6
  | .writing => 7
  | .confirming => 8
  | .finishing => 9

def mergeStateCode : MergeState → Nat
  | .idle => 0
  | .merging => 1
  | .suspended => 2

def bankStateCode : BankState → Nat
  | .empty => 0
  | .pending => 1
  | .active => 2
  | .draining => 3

/-! ### Card blocks (R204) -/

/-- The fields of block 0 (R2, R204). -/
def blockIssuer (b : List Byte) : Nat := numOf b 1 2
def blockClass (b : List Byte) : Nat := numOf b 3 3
def blockStatus (b : List Byte) : Nat := numOf b 4 4
def blockExpiry (b : List Byte) : Nat := numOf b 5 6
def blockKeyVersion (b : List Byte) : Nat := numOf b 7 7
def blockFormat (b : List Byte) : Nat := numOf b 8 8
def blockCode (b : List Byte) : List Byte := bytesOf b 13 16

/-- The encodings of the identity status (R203). -/
def statusActive : Nat := 1
def statusBlocked : Nat := 2

/-- The first 12 bytes of block 0 with status BLOCKED, every other field as read (R3). -/
def blockedFields (b : List Byte) : List Byte :=
  bytesOf b 1 3 ++ [BitVec.ofNat 8 statusBlocked] ++ bytesOf b 5 12

/-- The fields of a journey record (R4, R204). `spare` is byte 24, which carries no field. -/
structure Journey where
  tc : Nat
  balance : Int
  state : Nat
  legs : Nat
  entryStation : Nat
  entryTime : Nat
  originZone : Nat
  originBand : Nat
  chainPaid : Nat
  format : Nat
  lastExit : Nat
  dayAccumulated : Nat
  dayNumber : Nat
  spare : Byte
deriving DecidableEq, Repr

/-- The encodings of the journey state (R203). -/
def journeyIn : Nat := 1
def journeyOut : Nat := 2

/-- A journey record read from the bytes of its slot (R204). -/
def parseJourney (b : List Byte) : Journey :=
  { tc := numOf b 1 3
    balance := signedOf 24 (numOf b 4 6)
    state := numOf b 7 7 / 16
    legs := numOf b 7 7 % 16
    entryStation := numOf b 8 9
    entryTime := numOf b 10 12
    originZone := numOf b 13 13 / 16
    originBand := numOf b 13 13 % 16
    chainPaid := numOf b 14 15
    format := numOf b 16 16
    lastExit := numOf b 17 19
    dayAccumulated := numOf b 20 21
    dayNumber := numOf b 22 23
    spare := BitVec.ofNat 8 (numOf b 24 24) }

/-- The first 24 bytes of a journey record (R204). -/
def journeyBytes (j : Journey) : List Byte :=
  toBE 3 j.tc ++ toBESigned 3 j.balance ++ toBE 1 (j.state * 16 + j.legs) ++
    toBE 2 j.entryStation ++ toBE 3 j.entryTime ++ toBE 1 (j.originZone * 16 + j.originBand) ++
    toBE 2 j.chainPaid ++ toBE 1 j.format ++ toBE 3 j.lastExit ++ toBE 2 j.dayAccumulated ++
    toBE 2 j.dayNumber ++ [j.spare]

/-- Every field of a journey record is in the range R4 requires (R204). -/
def journeyInRange (j : Journey) : Bool :=
  decide (-100000 ≤ j.balance) && decide (j.balance ≤ 1000000) &&
    (decide (j.state = journeyIn) || decide (j.state = journeyOut)) &&
    decide (j.legs ≤ 3) && decide (j.originBand ≤ 7) && decide (j.format = 1)

/-- The number of a slot in the record code: 1 for slot A, 2 for slot B (R182). -/
def slotNumber : SlotId → Nat
  | .a => 1
  | .b => 2

/-- The other slot. -/
def otherSlot : SlotId → SlotId
  | .a => .b
  | .b => .a

/-- The first block of a slot (R4). -/
def slotFirstBlock : SlotId → Nat
  | .a => 1
  | .b => 3

/-- The class of a slot as read, under a card code key (R5). -/
def classOfSlot (codeKey : Key) (u : Uid) (slot : SlotId) (bytes : List Byte) : SlotClass :=
  if bytesOf bytes 25 32 = recordCode codeKey u (slotNumber slot) bytes then
    if journeyInRange (parseJourney bytes) then .valid else .codedBad
  else .uncoded

/-- A history entry (R68, R204): kind, station, time, amount, balance after and TC after, then zeros. -/
def historyBytes (h : HistoryFields) : List Byte :=
  toBE 1 h.kind ++ toBE 2 h.station ++ toBE 3 h.time ++ toBE 2 h.amount ++
    toBESigned 3 h.balanceAfter ++ toBE 3 h.tcAfter ++ [0, 0]

/-! ### Ring payloads (R205, R206) -/

/-- The SIGHTING payload (R205). -/
def sightingPayload (s : Sighting) : List Byte :=
  uidBytes s.uid ++ toBE 1 (sightKindCode s.kind) ++ toBE 3 s.base ++ toBE 3 s.result ++
    toBE 4 s.time ++ toBE 1 (sideCode s.side)

/-- The CLONE_NOTICE payload (R205). -/
def noticePayload (n : Notice) : List Byte :=
  uidBytes n.uid ++ toBE 3 n.tc ++ toBE 1 (cloneReasonCode n.reason)

/-- A SIGHTING frame that passes the parse-time checks, as a sighting (R205, R88). -/
def parseSighting (f : RingFrame) : Option Sighting :=
  match sightKindOf (numOf f.payload 8 8) with
  | none => none
  | some k =>
    let side := sideOfBit (numOf f.payload 19 19)
    if f.payload.length = 19 ∧ side = frameChannel f then
      some
        { uid := uidOf (bytesOf f.payload 1 7), kind := k
          base := numOf f.payload 9 11, result := numOf f.payload 12 14
          source := ⟨frameGate f, frameChannel f⟩, side := side, time := numOf f.payload 15 18 }
    else none

/-- The UID of a CLONE_NOTICE frame that passes the parse-time checks (R205). -/
def parseNotice (f : RingFrame) : Option Uid :=
  let reason := numOf f.payload 11 11
  if f.payload.length = 11 ∧ 1 ≤ reason ∧ reason ≤ 3 then some (uidOf (bytesOf f.payload 1 7))
  else none

/-- The line time of a BEACON frame that passes the parse-time checks (R205). -/
def parseBeacon (f : RingFrame) : Option Nat :=
  if f.payload.length = 4 then some (beNat f.payload) else none

/-- A frame of the insertion queue as it goes out: to all gates, from its source's channel (R87, R102). -/
def lineFrame : LineMsg → RingFrame
  | .sighting s => buildFrame kindSighting s.source.gate s.source.chan 31 (sightingPayload s)
  | .notice n => buildFrame kindNotice n.source.gate n.source.chan 31 (noticePayload n)

/-- The journal flags as a number, bit 0 to bit 6 (R203). -/
def journalFlagBits (fl : JournalFlags) : Nat :=
  flagBits [fl.fare.zoneClamped, fl.fare.capApplied, fl.fare.penalty, fl.fare.transfer,
    fl.historyMissed, fl.unconfirmed, fl.emergency]

/-- An optional field of a JOURNAL payload, in `width` bytes when present. -/
def optField (width : Nat) : Option Nat → List Byte
  | none => []
  | some n => toBE width n

/-- The presence byte of a record (R206): the flags field is present when a flag is set. -/
def presenceBits (r : JournalRecord) : Nat :=
  flagBits [r.refusal.isSome, r.tcBefore.isSome, r.tcAfter.isSome, r.fare.isSome,
    r.balanceAfter.isSome, r.fareVersion.isSome, r.hotVersion.isSome,
    decide (journalFlagBits r.flags ≠ 0)]

/-- The JOURNAL payload of a record (R206). -/
def journalPayload (r : JournalRecord) : List Byte :=
  toBE 1 (journalKindCode r.kind) ++ toBE 2 r.sequence ++ uidBytes r.uid ++
    toBE 1 (r.cls + 128 * sideCode r.side) ++ toBE 2 r.station ++ toBE 1 r.gate ++
    toBE 4 r.lineTime ++ toBE 1 (presenceBits r) ++
    optField 1 (r.refusal.map refusalNumber) ++ optField 3 r.tcBefore ++ optField 3 r.tcAfter ++
    optField 2 r.fare ++ ((r.balanceAfter.map (toBESigned 3)).getD []) ++
    optField 2 r.fareVersion ++ optField 2 r.hotVersion ++
    (if journalFlagBits r.flags = 0 then [] else toBE 1 (journalFlagBits r.flags))

/-- The JOURNAL frame of a record (R194): source this gate with the channel of the record's side,
destination the concentrator. -/
def journalFrame (gateNo : Nat) (r : JournalRecord) : RingFrame :=
  buildFrame kindJournal gateNo r.side 0 (journalPayload r)

/-- The MGMT_ANSWER frame of an answer (R152, R207). -/
def answerFrame (gateNo : Nat) (request : Byte) (code : AnswerCode) (data : List Byte) : RingFrame :=
  buildFrame kindAnswer gateNo .a 0 ([request, BitVec.ofNat 8 (answerNumber code)] ++ data)

/-! ### The request envelope (R207) -/

/-- The request a code names (R203). -/
def requestOf : Nat → Option Request
  | 1 => some .describe
  | 2 => some .status
  | 3 => some .counters
  | 4 => some .countersClear
  | 5 => some .setup
  | 6 => some .gate
  | 7 => some .restart
  | 8 => some .loadBegin
  | 9 => some .loadData
  | 10 => some .loadEnd
  | 11 => some .keyWrite
  | 12 => some .keyLock
  | _ => none

/-- The parameters of a payload: its bytes from 6 to the line code (R207). -/
def requestParams (payload : List Byte) : List Byte :=
  (payload.drop 5).take (payload.length - 13)

/-- The payload has the length its request code gives: 13 + p (R198, R207). -/
def requestLengthGood (r : Request) (payload : List Byte) : Bool :=
  decide (13 ≤ payload.length) &&
    (let p := payload.length - 13
     match r with
     | .describe | .status | .counters | .countersClear | .restart => decide (p = 0)
     | .setup => decide (p = 5)
     | .gate => decide (p = 1)
     | .loadBegin => decide (p = 5)
     | .loadData =>
       let n := numOf payload 10 10
       decide (6 ≤ p) && decide (1 ≤ n) && decide (n ≤ 64) && decide (p = 5 + n)
     | .loadEnd => decide (p = 8)
     | .keyWrite => decide (p = 19)
     | .keyLock => decide (p = 1))

/-- A request taken in hand from its envelope, not yet judged coded (R207). -/
def inHandOf (r : Request) (dest : Nat) (payload : List Byte) : InHand :=
  { request := r, dest := dest, time := numOf payload 2 5, params := requestParams payload
    code := payload.drop (payload.length - 8), coded := false }

/-- The input of the line code of a request (R185). -/
def lineCodeInput (h : InHand) : List Byte :=
  [BitVec.ofNat 8 h.dest, BitVec.ofNat 8 (requestCode h.request)] ++ toBE 4 h.time ++ h.params

/-- The input of the table code of a load (R185). -/
def tableCodeInput (kind : LoadKind) (length : Nat) (image : List Byte) : List Byte :=
  toBE 1 (loadKindCode kind) ++ toBE 4 length ++ image

end Sys2Proof.Machine
end

