-- ==== Sys2Proof/Machine/FareTable.lean ====
section
/-! DEFINITION. Table images: the fare table of R164 read from its image (R207) and its checks (R165),
and the two hotlist images with theirs (R115, R121). -/

namespace Sys2Proof.Machine

/-- The parameters of one product class (R164). -/
structure ClassParams where
  concession : Nat
  dailyCap : Nat
  entryMinimum : Nat
deriving DecidableEq, Repr

/-- A band: its start minute and its factor in percent (R164). -/
structure Band where
  start : Nat
  factor : Nat
deriving DecidableEq, Repr

/-- A fare table (R164). -/
structure FareTable where
  format : Nat
  version : Nat
  activation : Nat
  issuerCount : Nat
  issuers : List Nat
  zones : Nat
  unit : Nat
  bandCount : Nat
  maxFare : Nat
  incompleteFare : Nat
  overdraft : Nat
  transferWindow : Nat
  maxLegs : Nat
  passback : Nat
  passWindow : Nat
  reuseWindow : Nat
  retention : Nat
  dayStart : Nat
  classes : List ClassParams
  bands : List Band
  matrix : List Nat
deriving DecidableEq, Repr

/-- The 4-byte word of an image at word number `i`. -/
def imageWord (img : List Byte) (i : Nat) : Nat := beNat ((img.drop (4 * i)).take 4)

/-- The 2-byte number of an image at a byte offset. -/
def imageHalf (img : List Byte) (off : Nat) : Nat := beNat ((img.drop off).take 2)

/-- The class parameters of one class (R207). -/
def classOf (img : List Byte) (c : Nat) : ClassParams :=
  { concession := imageWord img (21 + 3 * c), dailyCap := imageWord img (22 + 3 * c)
    entryMinimum := imageWord img (23 + 3 * c) }

/-- One band of an image (R207). -/
def bandOf (img : List Byte) (i : Nat) : Band :=
  { start := imageHalf img (180 + 4 * i), factor := imageHalf img (182 + 4 * i) }

/-- The fare table of an image (R207). -/
def parseFareTable (img : List Byte) : FareTable :=
  let issuerCount := imageWord img 3
  let zones := imageWord img 8
  let bandCount := imageWord img 10
  { format := imageWord img 0
    version := imageWord img 1
    activation := imageWord img 2
    issuerCount := issuerCount
    issuers := ((List.range 4).map (fun i => imageWord img (4 + i))).take issuerCount
    zones := zones
    unit := imageWord img 9
    bandCount := bandCount
    maxFare := imageWord img 11
    incompleteFare := imageWord img 12
    overdraft := imageWord img 13
    transferWindow := imageWord img 14
    maxLegs := imageWord img 15
    passback := imageWord img 16
    passWindow := imageWord img 17
    reuseWindow := imageWord img 18
    retention := imageWord img 19
    dayStart := imageWord img 20
    classes := (List.range 8).map (classOf img)
    bands := (List.range bandCount).map (bandOf img)
    matrix := (List.range (zones * (zones + 1) / 2)).map
      (fun k => imageHalf img (180 + 4 * bandCount + 2 * k)) }

/-- Check 1 of R165: the image has the length its zone count and band count imply. -/
def fareLengthGood (img : List Byte) : Bool :=
  let n := imageWord img 8
  let b := imageWord img 10
  decide (84 ≤ img.length) && decide (1 ≤ n) && decide (n ≤ 16) && decide (1 ≤ b) && decide (b ≤ 8) &&
    decide (img.length = 180 + 4 * b + n * (n + 1))

/-- A number lies between two bounds, both included. -/
def between (lo n hi : Nat) : Bool := decide (lo ≤ n) && decide (n ≤ hi)

/-- Check 2 of R165: every item lies in its range of R164, and the format word is 1 (R207). -/
def fareRangesGood (t : FareTable) : Bool :=
  decide (t.format = 1) && between 0 t.version 65535 && between 0 t.activation 16777215 &&
    between 1 t.issuerCount 4 && t.issuers.all (fun i => between 0 i 65535) &&
    between 1 t.zones 16 && t.matrix.all (fun m => between 0 m 20000) &&
    [1, 2, 5, 10, 20, 50, 100].contains t.unit &&
    between 1 t.bandCount 8 && t.bands.all (fun b => between 0 b.start 1439 && between 50 b.factor 200) &&
    t.classes.all (fun c => between 0 c.concession 100 && between 0 c.dailyCap 65535 &&
      between 0 c.entryMinimum 20000) &&
    between 0 t.maxFare 20000 && between 0 t.incompleteFare t.maxFare &&
    between 0 t.overdraft 50000 && between 0 t.transferWindow 240 && between 1 t.maxLegs 3 &&
    between 0 t.passback 60 && between 2 t.passWindow 30 && between 10 t.reuseWindow 600 &&
    between 1 t.retention 60 && between 0 t.dayStart 1439

/-- A list of numbers is strictly ascending. -/
def ascending : List Nat → Bool
  | [] => true
  | [_] => true
  | a :: b :: rest => decide (a < b) && ascending (b :: rest)

/-- The checks of R165, in order. -/
def fareImageGood (img : List Byte) : Bool :=
  fareLengthGood img && fareRangesGood (parseFareTable img) &&
    ascending ((parseFareTable img).bands.map Band.start)

/-! ### Hotlist images (R207) -/

/-- The entry of a HOTLIST_FULL image at a number, when its action is one of R108. -/
def hotEntryOf (img : List Byte) (i : Nat) : Option HotEntry :=
  let raw := (img.drop (4 + 8 * i)).take 8
  (hotActionOf (numOf raw 8 8)).map (fun a => { uid := uidOf (bytesOf raw 1 7), action := a })

/-- The operation of a HOTLIST_DELTA image at a number, when it is one of R109. -/
def deltaOpOf (img : List Byte) (i : Nat) : Option DeltaOp :=
  let raw := (img.drop (6 + 9 * i)).take 9
  let u := uidOf (bytesOf raw 2 8)
  match numOf raw 1 1 with
  | 1 => (hotActionOf (numOf raw 9 9)).map (DeltaOp.add u)
  | 2 => some (.remove u)
  | _ => none

/-- The results of a list of possible items, when all of them are there. -/
def allSome {α : Type} : List (Option α) → Option (List α)
  | [] => some []
  | none :: _ => none
  | some x :: rest => (allSome rest).map (x :: ·)

/-- The UID an operation names. -/
def DeltaOp.uid : DeltaOp → Uid
  | .add u _ => u
  | .remove u => u

/-- The entries of a HOTLIST_FULL image that passes R121. -/
def parseFull (img : List Byte) : Option (List HotEntry) :=
  let count := imageHalf img 2
  if 4 ≤ img.length ∧ count ≤ 16384 ∧ img.length = 4 + 8 * count then
    match allSome ((List.range count).map (hotEntryOf img)) with
    | some es => if ascending (es.map (fun e => e.uid.toNat)) then some es else none
    | none => none
  else none

/-- The operations of a HOTLIST_DELTA image that passes the contents check of R115. -/
def parseDelta (img : List Byte) : Option (List DeltaOp) :=
  let count := imageHalf img 4
  if 6 ≤ img.length ∧ count ≤ 512 ∧ img.length = 6 + 9 * count ∧ imageHalf img 0 ≠ imageHalf img 2 then
    match allSome ((List.range count).map (deltaOpOf img)) with
    | some ops => if (ops.map DeltaOp.uid).Nodup then some ops else none
    | none => none
  else none

/-- The number of entries a bank of `entries` would hold after a delta: the active count plus the
effective adds less the effective removes (R115, item 3). -/
def countAfter (entries : List HotEntry) (ops : List DeltaOp) : Nat :=
  let holds := fun (u : Uid) => entries.any (fun e => decide (e.uid = u))
  let adds := ops.countP (fun o => match o with
    | .add u _ => !holds u
    | .remove _ => false)
  let removes := ops.countP (fun o => match o with
    | .add _ _ => false
    | .remove u => holds u)
  entries.length + adds - removes

end Sys2Proof.Machine
end

