-- ==== Sys2Proof/Machine/Fare.lean ====
section
/-! DEFINITION. The Fare Unit and the Record Composer (chapter 3). Both are functions of their inputs
alone: they hold nothing between requests (R50, R67). -/

namespace Sys2Proof.Machine

/-- The largest time that a card holds (R51). -/
def maxCardTime : Nat := 16777215

/-- The largest TC (R33). -/
def maxTc : Nat := 16777215

/-- The value `now` of the Fare Unit: the decision card minutes, saturating (R51). -/
def fareNow (decisionTime : Nat) : Nat := min (decisionTime / 60) maxCardTime

/-- The service day (R51). -/
def serviceDay (now dayStart : Nat) : Nat :=
  if dayStart ≤ now then (now - dayStart) / 1440 else 0

/-- The number of the last band whose start is at most `m`, counting from `i`; `found` is the last one
met before. -/
def lastBandAt (m : Nat) : Nat → Nat → List Band → Nat
  | _, found, [] => found
  | i, found, b :: rest => lastBandAt m (i + 1) (if b.start ≤ m then i else found) rest

/-- The band of a minute-of-day (R52): the last band started, or the last band of the table when none
has started yet. -/
def bandAt (bands : List Band) (m : Nat) : Nat :=
  lastBandAt m 0 (bands.length - 1) bands

/-- The day base A of the day roll (R53). -/
def dayBase (j : Journey) (day : Nat) : Nat :=
  if j.dayNumber = day then j.dayAccumulated else 0

/-- The cap step of R54: a proposed amount against a daily cap and a day base. -/
def capStep (cap base x : Nat) : Nat :=
  if cap = 0 then x else min x (cap - base)

/-- The cap step of R54 has reduced the amount. -/
def capApplies (cap base x : Nat) : Bool := decide (capStep cap base x < x)

/-- The field-operation plans (R67). -/
inductive Plan where
  | entryNew
  | entryTransfer
  | entryPenalty
  | exitFare
  | exitPenalty
deriving DecidableEq, Repr

/-- The inputs of a request to the Fare Unit (R50). -/
structure FareInput where
  side : Side
  card : Journey
  cls : Nat
  station : Nat
  zone : Nat
  now : Nat
  table : FareTable
deriving DecidableEq, Repr

/-- An accept of the Fare Unit (R50). -/
structure FareAccept where
  plan : Plan
  charge : Nat
  balanceAfter : Int
  flags : FareFlags
deriving DecidableEq, Repr

/-- The answer of the Fare Unit: a refusal, or an accept (R50). -/
inductive FareAnswer where
  | refusal (code : RefusalCode)
  | accept (a : FareAccept)
deriving DecidableEq, Repr

/-- The class parameters of the card's product class. -/
def fareClass (i : FareInput) : ClassParams := i.table.classes.getD i.cls ⟨0, 0, 0⟩

/-- The service day of a request. -/
def fareDay (i : FareInput) : Nat := serviceDay i.now i.table.dayStart

/-- The day base of a request (R53). -/
def fareBase (i : FareInput) : Nat := dayBase i.card (fareDay i)

/-- The incomplete-journey penalty: the cap step on the incomplete fare (R56, R59). -/
def farePenalty (i : FareInput) : Nat :=
  capStep (fareClass i).dailyCap (fareBase i) i.table.incompleteFare

/-- The cap step has reduced the penalty. -/
def farePenaltyCapped (i : FareInput) : Bool :=
  capApplies (fareClass i).dailyCap (fareBase i) i.table.incompleteFare

/-- The passback test of R55 fails: same station, and entered less than the interval ago. -/
def passbackFails (i : FareInput) : Bool :=
  decide (i.card.entryStation = i.station) && decide (i.now - i.card.entryTime < i.table.passback)

/-- The chain continues at an entry (R57). -/
def chainContinues (i : FareInput) : Bool :=
  decide (0 < i.table.transferWindow) && decide (i.card.legs < i.table.maxLegs) &&
    decide (i.card.lastExit ≤ i.now) && decide (i.now - i.card.lastExit ≤ i.table.transferWindow)

/-- The entry minimum check (R58), which ends every entry not refused PASSBACK. -/
def entryEnd (i : FareInput) (plan : Plan) (penalty : Nat) (flags : FareFlags) : FareAnswer :=
  if i.card.balance - (penalty : Int) < ((fareClass i).entryMinimum : Int) then .refusal .lowBalance
  else .accept
    { plan := plan, charge := penalty, balanceAfter := i.card.balance - (penalty : Int), flags := flags }

/-- An entry (R55 to R58). -/
def fareEntry (i : FareInput) : FareAnswer :=
  if i.card.state = journeyIn then
    if passbackFails i then .refusal .passback
    else entryEnd i .entryPenalty (farePenalty i) ⟨false, farePenaltyCapped i, true, false⟩
  else if chainContinues i then entryEnd i .entryTransfer 0 ⟨false, false, false, true⟩
  else entryEnd i .entryNew 0 ⟨false, false, false, false⟩

/-- The balance check (R65, step 9): a charge leaves the balance below the overdraft limit. -/
def overdrawn (i : FareInput) (charge : Nat) : Bool :=
  decide (i.card.balance - (charge : Int) < -(i.table.overdraft : Int))

/-- A zone moved to the last one that the table prices (R60). -/
def clampTo (count z : Nat) : Nat := if count ≤ z then count - 1 else z

/-- The clamp has moved the origin zone, the exit zone or the origin band (R60). -/
def fareClamped (i : FareInput) : Bool :=
  decide (i.table.zones ≤ i.card.originZone) || decide (i.table.zones ≤ i.zone) ||
    decide (i.table.bandCount ≤ i.card.originBand)

/-- The position of row `i`, column `j` in the zone matrix (R61). -/
def matrixPosition (n i j : Nat) : Nat := i * n - i * (i - 1) / 2 + (j - i)

/-- The base fare B (R61). -/
def baseFare (i : FareInput) : Nat :=
  let o := clampTo i.table.zones i.card.originZone
  let e := clampTo i.table.zones i.zone
  i.table.matrix.getD (matrixPosition i.table.zones (min o e) (max o e)) 0

/-- The product P of base, band factor and class factor (R62). -/
def fareProduct (i : FareInput) : Nat :=
  let band := i.table.bands.getD (clampTo i.table.bandCount i.card.originBand) ⟨0, 0⟩
  baseFare i * band.factor * (100 - (fareClass i).concession)

/-- The rounded fare G of a product under a rounding unit (R63). -/
def roundFare (product unit : Nat) : Nat :=
  let d := 10000 * unit
  let q := product / d
  (if d < 2 * (product % d) then q + 1 else q) * unit

/-- The fare after continuation and ceiling, G2 (R64, steps 6 and 7). -/
def fareCeiled (i : FareInput) : Nat :=
  min (roundFare (fareProduct i) i.table.unit - i.card.chainPaid) i.table.maxFare

/-- The charged fare G3 (R64, step 8). -/
def fareCharged (i : FareInput) : Nat :=
  capStep (fareClass i).dailyCap (fareBase i) (fareCeiled i)

/-- The end of an exit: the balance check, then the accept (R59, R65). -/
def exitEnd (i : FareInput) (plan : Plan) (charge : Nat) (flags : FareFlags) : FareAnswer :=
  if overdrawn i charge then .refusal .insufficient
  else .accept
    { plan := plan, charge := charge, balanceAfter := i.card.balance - (charge : Int), flags := flags }

/-- An exit (R59 to R65). -/
def fareExit (i : FareInput) : FareAnswer :=
  if i.card.state = journeyIn then
    exitEnd i .exitFare (fareCharged i)
      ⟨fareClamped i, capApplies (fareClass i).dailyCap (fareBase i) (fareCeiled i), false,
        decide (2 ≤ i.card.legs)⟩
  else exitEnd i .exitPenalty (farePenalty i) ⟨false, farePenaltyCapped i, true, false⟩

/-- The answer of the Fare Unit (R50). -/
def fareUnit (i : FareInput) : FareAnswer :=
  match i.side with
  | .a => fareEntry i
  | .b => fareExit i

/-- A sum saturating at 65,535 (R67). -/
def satAdd (x y : Nat) : Nat := min (x + y) 65535

/-- The journey record of a plan (R67). -/
def composeJourney (i : FareInput) (a : FareAccept) : Journey :=
  let old := i.card
  let rolled : Journey :=
    { old with
      tc := old.tc + 1
      dayAccumulated := satAdd (fareBase i) a.charge
      dayNumber := fareDay i
      format := 1 }
  let bandNow := bandAt i.table.bands (i.now % 1440)
  match a.plan with
  | .entryNew =>
    { rolled with
      state := journeyIn, legs := 1, entryStation := i.station, entryTime := i.now
      originZone := i.zone, originBand := bandNow, chainPaid := 0 }
  | .entryTransfer =>
    { rolled with
      state := journeyIn, legs := old.legs + 1, entryStation := i.station, entryTime := i.now }
  | .entryPenalty =>
    { rolled with
      balance := old.balance - (a.charge : Int)
      state := journeyIn, legs := 1, entryStation := i.station, entryTime := i.now
      originZone := i.zone, originBand := bandNow, chainPaid := 0 }
  | .exitFare =>
    { rolled with
      balance := old.balance - (a.charge : Int)
      state := journeyOut, chainPaid := satAdd old.chainPaid a.charge, lastExit := i.now }
  | .exitPenalty =>
    { rolled with
      balance := old.balance - (a.charge : Int)
      state := journeyOut, legs := 0, chainPaid := 0, lastExit := i.now }

/-- The fields of the history image of an accept EXIT (R68): kind EXIT, or PENALTY for a penalty exit
(R203). -/
def historyFields (i : FareInput) (a : FareAccept) : HistoryFields :=
  { kind := if a.plan = .exitPenalty then 3 else 2, station := i.station, time := i.now
    amount := a.charge, balanceAfter := a.balanceAfter, tcAfter := i.card.tc + 1 }

end Sys2Proof.Machine
end

