-- ==== Sys2Proof/Config.lean ====
section
/-! DEFINITION. What an implementation fixes and the manual does not: the gate identity of the part, and
the free values of the model. Each is an opaque constant with no body, so that no proof can rest on what
it is (assumption log 5 to 8). -/

namespace Sys2Proof

/-- The 64-bit gate identity, fixed at manufacture and different for every part (R175). -/
opaque Config.gateIdentity : BitVec 64

/-- The 8 bytes that the random source of the Key Store gives at its `n`-th draw (R183, R184). -/
opaque Config.challengeDraw : Nat → BitVec 64

/-- Whether a key slot whose nonvolatile change is cut off holds its contents from after the request
(true) or from before it (false), at the `n`-th such event (R178). -/
opaque Config.cutChangeLands : Nat → Bool

/-- The reason that a CLONE notice carries when the only finding of its transaction is a double reuse,
for which R102 names none. -/
opaque Config.doubleReuseReason : CloneReason

end Sys2Proof
end

