-- ==== Sys2Proof/Machine/Flags.lean ====
section
/-! DEFINITION. The conditions and flags that the part derives from its state: the out-of-service
conditions (R126), the gate state (R125), the enabled sides (R15), leaves and indicators (R142, R143),
the status flags (R201), ages and periods (R90), and the room of each queue. -/

namespace Sys2Proof.Machine

/-! ### Banks -/

/-- A fare bank of the Table Store. -/
def bankOf (t : TableStore) : BankId → Bank
  | .x => t.bankX
  | .y => t.bankY

/-- The other fare bank. -/
def otherBank : BankId → BankId
  | .x => .y
  | .y => .x

/-- The bank in a state, when one is (R166: at most one is ACTIVE and at most one PENDING). -/
def bankIn (t : TableStore) (st : BankState) : Option BankId :=
  if t.bankX.state = st then some .x else if t.bankY.state = st then some .y else none

/-- The load bank (R166). -/
def loadBank (t : TableStore) : BankId :=
  match bankIn t .active with
  | some b => otherBank b
  | none => (bankIn t .pending).getD .x

/-! ### Gate state and sides -/

/-- An out-of-service condition of R126 holds. -/
def outOfService (s : State) : Bool :=
  (bankIn s.store .active).isNone || !s.clock.isSet || s.ring.duplicate ||
    (match s.store.setup with
     | none => true
     | some l => decide (l.service = .outService))

/-- The gate state, derived in the order of R125. -/
def gateState (s : State) : GateState :=
  if s.emerg || s.gate.freeFlag then .free
  else if outOfService s then .outOfService
  else
    match s.gate.alarm with
    | some k => .alarm k
    | none =>
      match s.gate.queue with
      | g :: _ => if g.entered then .passing g.side else .opened g.side
      | [] => .closed

/-- A gate mode includes a side (R15, R124). -/
def modeIncludes (m : GateMode) (sd : Side) : Bool :=
  match m, sd with
  | .entry, .a => true
  | .exit, .b => true
  | .both, _ => true
  | _, _ => false

/-- The gate mode of the line setup record includes a side; none does without a record (R15). -/
def setupIncludes (s : State) (sd : Side) : Bool :=
  match s.store.setup with
  | none => false
  | some l => modeIncludes l.mode sd

/-- A side is enabled (R15). -/
def sideEnabled (s : State) (sd : Side) : Bool :=
  setupIncludes s sd && decide (gateState s ≠ .outOfService) && decide (gateState s ≠ .free)

/-- The leaf command of a gate state (R142). -/
def leafOf : GateState → LeafCommand
  | .opened dir => .openToward dir.other
  | .passing dir => .openToward dir.other
  | .free => .free
  | _ => .close

/-- What the leaf commands follow in a state. -/
def leafCause (s : State) : LeafCause := ⟨gateState s, s.gate.alarm⟩

/-- The commands that an event gives, by what they followed before it and what they follow after it: the
command of the gate state at each change of that state (R142), and at the raising and the clearing of an
alarm (R136, R138). A turn from one direction to the other goes by way of close, and a change between OPEN and
PASSING of one direction gives none. Where else none is given is assumption log 56. -/
def leafChange (old new : LeafCause) : List LeafCommand :=
  match leafOf old.state, leafOf new.state with
  | .openToward x, .openToward y => if x = y then [] else [.close, .openToward y]
  | _, command => if old = new then [] else [command]

/-- The head's entry side is this side, in OPEN or PASSING (R143). -/
def showsGo (st : GateState) (sd : Side) : Bool :=
  match st with
  | .opened dir => decide (dir = sd)
  | .passing dir => decide (dir = sd)
  | _ => false

/-- The gate state is an ALARM. -/
def isAlarm : GateState → Bool
  | .alarm _ => true
  | _ => false

/-- The lines of the indicator table below STOP (R143). -/
def indicatorBelowStop (s : State) (sd : Side) : Indicator :=
  if showsGo (gateState s) sd then .go
  else if isAlarm (gateState s) then .wait
  else if !setupIncludes s sd then .closed
  else if s.gate.reserved + s.gate.queue.length = 2 then .wait
  else .ready

/-- What the indicator of a side shows: the first line of R143 that applies. -/
def indicatorOf (s : State) (sd : Side) : Indicator :=
  if gateState s = .free then .free
  else if gateState s = .outOfService then .closed
  else
    match s.gate.stopTimer.get sd with
    | some t => .stop t.category
    | none => indicatorBelowStop s sd

/-- The indicator category of a refusal (outcome table of chapter 2). -/
def categoryOf : RefusalCode → StopCategory
  | .authFail => .tapAgain
  | .cardLost => .tapAgain
  | .lowBalance => .addValue
  | .insufficient => .addValue
  | .gateBusy => .wait
  | .lineBusy => .wait
  | .journalFull => .closed
  | _ => .seeAgent

/-! ### Ages (R90) -/

/-- The age of a line time (R90); an unset clock reads 0, so every age is then 0. -/
def ageOf (s : State) (time : Nat) : Nat := s.clock.lineTime - time

/-- The period of a kind of sighting, from the copy of the active parameters (R90, R168). -/
def periodOf (s : State) (k : SightKind) : Nat :=
  match k, s.store.params with
  | .intent, _ => 3
  | .unused, some p => p.reuseWindow
  | .unused, none => 600
  | _, some p => p.retention * 60
  | _, none => 3600

/-- A sighting's age reaches its period (R90). -/
def outlived (s : State) (x : Sighting) : Bool := decide (periodOf s x.kind ≤ ageOf s x.time)

/-! ### Room in queues -/

/-- The available number of the Journal Queue (R191). -/
def journalAvailable (j : Journal) : Nat := 1024 - j.records.length - j.reserved

/-- The places of the insertion queue in use (R97). -/
def insertionUsed (r : Ring) : Nat := r.insertion.length + r.intentReserved

/-- A frame of the insertion queue is an INTENT (R97). -/
def isIntentMsg : LineMsg → Bool
  | .sighting x => decide (x.kind = .intent)
  | .notice _ => false

/-- The places of the answer queue in use (R152). -/
def answerUsed (r : Ring) : Nat := r.held + r.filled.length

/-- A cause of repeater mode stands (R158). -/
def repeaterCause (s : State) : Bool :=
  decide (s.power ≠ .running) || decide (s.ring.gateNo = 0) || s.ring.restartPeriod.isSome

/-! ### Transactions -/

/-- A side's transaction is in a state and has not asked HALT (assumption log 50). -/
def tapIn (s : State) (sd : Side) (st : TapState) : Bool :=
  decide ((s.taps.get sd).state = st) && !(s.taps.get sd).ending

/-- The UID of a side's transaction. -/
def tapUid (s : State) (sd : Side) : Uid := (s.taps.get sd).record.uid.getD 0

/-- A side's transaction is for a UID and in CLAIMING, WRITING or CONFIRMING (R101). One that has asked HALT
and keeps one of these names until its exchange has ended (R24) is in flight no more (assumption log 50). -/
def inFlight (s : State) (sd : Side) (u : Uid) : Bool :=
  decide ((s.taps.get sd).record.uid = some u) &&
    (tapIn s sd .claiming || tapIn s sd .writing || tapIn s sd .confirming)

/-- The TC that the clone check compares: the card TC, or the context's base TC (R98). -/
def checkedTc (s : State) (sd : Side) : Nat :=
  match (s.taps.get sd).record.decision with
  | some d => d.baseTc
  | none => (s.taps.get sd).record.cardTc.getD 0

/-- The source of own sightings of a side (R88). -/
def ownSource (s : State) (sd : Side) : Source := ⟨s.ring.gateNo, sd⟩

/-! ### Status flags (R201, R207) -/

/-- TIME_UNSET, HOLDING and DUPLICATE_NUMBER. -/
def lineFlags (s : State) : Nat := flagBits [!s.clock.isSet, s.clock.hold, s.ring.duplicate]

/-- The EMERG pin and the management free flag. -/
def freeFlags (s : State) : Nat := flagBits [s.emerg, s.gate.freeFlag]

/-- The fare flags clear. -/
def noFareFlags : FareFlags := ⟨false, false, false, false⟩

/-- The journal flags clear. -/
def noFlags : JournalFlags := ⟨noFareFlags, false, false, false⟩

end Sys2Proof.Machine
end

