-- ==== Sys2Proof/Machine/Ops.lean ====
section
/-! DEFINITION. The shared operations over single blocks: updates of one field of State, the Journal Queue
(R191 to R195), reservations (R35, R128), the insertion queue (R97), the local hotlist (R113), the STOP
display (R143), air commands (R18) and key slots (R178). -/

namespace Sys2Proof.Machine

/-! ### Updates of one block -/

def setChan (sd : Side) (c : Channel) (s : State) : State := { s with chans := s.chans.set sd c }
def modChan (sd : Side) (f : Channel → Channel) (s : State) : State := setChan sd (f (s.chans.get sd)) s
def setTap (sd : Side) (t : Tap) (s : State) : State := { s with taps := s.taps.set sd t }
def modTap (sd : Side) (f : Tap → Tap) (s : State) : State := setTap sd (f (s.taps.get sd)) s
def modRecord (sd : Side) (f : TapRecord → TapRecord) (s : State) : State :=
  modTap sd (fun t => { t with record := f t.record }) s
def setEngine (sd : Side) (j : Option ChanJob) (s : State) : State :=
  { s with engines := s.engines.set sd j }
def modHot (f : Hotlist → Hotlist) (s : State) : State := { s with hot := f s.hot }
def modStore (f : TableStore → TableStore) (s : State) : State := { s with store := f s.store }
def modArb (f : Arbiter → Arbiter) (s : State) : State := { s with arb := f s.arb }
def modGate (f : Gate → Gate) (s : State) : State := { s with gate := f s.gate }
def modRing (f : Ring → Ring) (s : State) : State := { s with ring := f s.ring }
def modClock (f : Clock → Clock) (s : State) : State := { s with clock := f s.clock }
def modDecoder (f : Decoder → Decoder) (s : State) : State := { s with decoder := f s.decoder }
def modJournal (f : Journal → Journal) (s : State) : State := { s with journal := f s.journal }

/-- A state name given to a Tap Controller. -/
def setTapState (sd : Side) (st : TapState) (s : State) : State :=
  modTap sd (fun t => { t with state := st }) s

/-! ### Journal Queue -/

/-- A counter of 0–4,294,967,295 advanced by 1 (R195). -/
def advance32 (n : Nat) : Nat := (n + 1) % 4294967296

/-- The counters changed. -/
def modCounters (f : Counters → Counters) (s : State) : State :=
  modJournal (fun j => { j with counters := f j.counters }) s

/-- The station id of the line setup record, or 0 when none is present (R190). -/
def stationOf (s : State) : Nat :=
  match s.store.setup with
  | some l => l.station
  | none => 0

/-- The fixed part of a record made now (R190), with no optional field. -/
def stampRecord (s : State) (kind : JournalKind) (uid : Uid) (cls : Nat) (side : Side) : JournalRecord :=
  { kind := kind, sequence := 0, uid := uid, cls := cls, side := side
    station := stationOf s, gate := s.ring.gateNo, lineTime := s.clock.lineTime
    refusal := none, tcBefore := none, tcAfter := none, fare := none, balanceAfter := none
    fareVersion := none, hotVersion := none, flags := noFlags, isOpen := false }

/-- A record stored at the tail with the next sequence (R192). -/
def storeRecord (r : JournalRecord) (j : Journal) : Journal :=
  { j with
    records := j.records ++ [{ r with sequence := j.nextSequence }]
    nextSequence := (j.nextSequence + 1) % 65536 }

/-- An unreserved record offered: stored when available is at least 1, else counted unrecorded (R192).-/
def offerRecord (r : JournalRecord) (s : State) : State :=
  if 1 ≤ journalAvailable s.journal then modJournal (storeRecord r) s
  else modCounters (fun c => { c with unrecorded := advance32 c.unrecorded }) s

/-- A reservation converted into its record (R191, R192). The place was counted, so it is there. -/
def convertRecord (r : JournalRecord) (s : State) : State :=
  modJournal
    (fun j =>
      let freed : Journal := { j with reserved := j.reserved - 1 }
      if 1 ≤ journalAvailable freed then storeRecord r freed else freed) s

/-- The first open record of a side closed, with HISTORY_MISSED added when `missed` (R193). -/
def closeFirst (sd : Side) (missed : Bool) : List JournalRecord → List JournalRecord
  | [] => []
  | r :: rest =>
    if r.isOpen && decide (r.side = sd) then
      { r with
        isOpen := false
        flags := { r.flags with historyMissed := r.flags.historyMissed || missed } } :: rest
    else r :: closeFirst sd missed rest

/-- The open record of a side closed (R193). -/
def closeRecord (sd : Side) (missed : Bool) (s : State) : State :=
  modJournal (fun j => { j with records := closeFirst sd missed j.records }) s

/-! ### Reservations (R35, R128, R191, R97) -/

/-- The first frame of the insertion queue that is not an INTENT, displaced (R97). -/
def displaceFirst : List LineMsg → Option (List LineMsg)
  | [] => none
  | m :: rest => if isIntentMsg m then (displaceFirst rest).map (m :: ·) else some rest

/-- An INTENT reservation of the insertion queue, when it can be given (R97, item 1). -/
def reserveIntent (r : Ring) : Option Ring :=
  if insertionUsed r < 32 then some { r with intentReserved := r.intentReserved + 1 }
  else
    (displaceFirst r.insertion).map
      (fun l => { r with insertion := l, intentReserved := r.intentReserved + 1 })

/-- A reservation of the insertion queue turned into its INTENT frame, at the tail (R97, item 2). -/
def placeIntent (m : LineMsg) (r : Ring) : Ring :=
  { r with insertion := r.insertion ++ [m], intentReserved := r.intentReserved - 1 }

/-- A non-INTENT frame joining the insertion queue (R97, item 3). -/
def joinInsertion (m : LineMsg) (r : Ring) : Ring :=
  if insertionUsed r < 32 then { r with insertion := r.insertion ++ [m] }
  else
    match displaceFirst r.insertion with
    | some l => { r with insertion := l ++ [m] }
    | none => r

/-- The youngest frame equal to this one taken out of the insertion queue (R97, item 4). -/
def withdrawMsg (m : LineMsg) (r : Ring) : Ring :=
  { r with insertion := (r.insertion.reverse.erase m).reverse }

/-- The insertion reservation of a transaction released (R97, item 4). -/
def releaseInsertion (sd : Side) (s : State) : State :=
  if (s.taps.get sd).record.holdsInsertion then
    modRecord sd (fun r => { r with holdsInsertion := false })
      (modRing (fun r => { r with intentReserved := r.intentReserved - 1 }) s)
  else s

/-- The journal reservation of a transaction released (R191). -/
def releaseJournal (sd : Side) (s : State) : State :=
  if (s.taps.get sd).record.holdsJournal then
    modRecord sd (fun r => { r with holdsJournal := false })
      (modJournal (fun j => { j with reserved := j.reserved - 1 }) s)
  else s

/-- The grant slot of a transaction released (R128). -/
def releaseGrantSlot (sd : Side) (s : State) : State :=
  if (s.taps.get sd).record.holdsGrant then
    modRecord sd (fun r => { r with holdsGrant := false })
      (modGate (fun g => { g with reserved := g.reserved - 1 }) s)
  else s

/-- Every reservation of a transaction released, in the reverse order of taking (R35). -/
def releaseReservations (sd : Side) (s : State) : State :=
  releaseGrantSlot sd (releaseJournal sd (releaseInsertion sd s))

/-! ### Local hotlist (R113, R174) -/

/-- The entries of the active hotlist bank (R108). -/
def activeEntries (h : Hotlist) : List HotEntry :=
  match h.active with
  | .zero => h.bank0
  | .one => h.bank1

/-- A UID is in a list of hotlist entries. -/
def listed (entries : List HotEntry) (u : Uid) : Bool := entries.any (fun e => decide (e.uid = u))

/-- An addition to the local hotlist (R113). -/
def addLocal (u : Uid) (h : Hotlist) : Hotlist :=
  if h.localList.contains u then h
  else if listed (activeEntries h) u then h
  else if h.localList.length < 256 then { h with localList := h.localList ++ [u] }
  else { h with localFull := true }

/-- A UID offered to the local hotlist: judged at once when the port is free, else it waits for the end of
the grant in use (R113, R174). -/
def offerLocal (u : Uid) (s : State) : State :=
  if s.arb.inUse.isNone && s.hot.waiting.isEmpty then modHot (addLocal u) s
  else modHot (fun h => { h with waiting := h.waiting ++ [u] }) s

/-- Every waiting addition taken, in the order of their offers, at the end of the grant in use and before
the next grant begins (R174). -/
def takeAdditions (h : Hotlist) : Hotlist :=
  h.waiting.foldl (fun h u => addLocal u h) { h with waiting := [] }

/-! ### STOP display and air commands -/

/-- The STOP timer of a side started at 2 s with a category (R143). -/
def startStop (sd : Side) (category : StopCategory) (s : State) : State :=
  modGate (fun g => { g with stopTimer := g.stopTimer.set sd (some ⟨2000, category⟩) }) s

/-- The window of an air command: 5 ms for every command but HALT (R10, R13). -/
def windowOf : AirCommand → Option Nat
  | .halt => none
  | _ => some 5

/-- An air command sent by the channel of a side, with its answer window opened (R10, R11, R12). -/
def sendCommand (sd : Side) (cmd : AirCommand) (attempt : Nat) (s : State) : State :=
  modChan sd (fun c => { c with outstanding := some ⟨cmd, attempt⟩, answerTimer := windowOf cmd }) s

/-- The Tap Controller asks HALT, which the channel sends whether or not its lost mark is set, and waits
for the exchange-ended event (R13, R18, R46). -/
def askHalt (sd : Side) (s : State) : State :=
  modTap sd (fun t => { t with ending := true, hold := none }) (sendCommand sd .halt 1 s)

/-! ### Key slots (R178, R179) -/

/-- The contents of a slot that serves, LOADED or LOCKED. -/
def slotEntry : KeySlot → Option KeyEntry
  | .empty => none
  | .loaded e => some e
  | .locked e => some e

/-- The card key slot that serves a role and version: the lowest-numbered one (R179). -/
def cardMaster (s : State) (role : KeyRole) (version : Nat) : Option Key :=
  (s.keys.toList.filterMap slotEntry).find?
      (fun e => decide (e.role = role) && decide (e.version = version))
    |>.map KeyEntry.key

/-- The entry of the higher version, the earlier one on equal versions. -/
def betterLine : Option KeyEntry → KeyEntry → Option KeyEntry
  | none, e => some e
  | some b, e => if b.version < e.version then some e else some b

/-- The line key: that of the LINE slot of the highest version, the lowest-numbered of that version
(R179). -/
def lineKey (s : State) : Option Key :=
  (((s.keys.toList.filterMap slotEntry).filter (fun e => decide (e.role = .line))).foldl betterLine
      none).map KeyEntry.key

/-- The slot of a number 0–7. -/
def slotAt (s : State) (n : Nat) : KeySlot := s.keys.toList.getD n .empty

/-- A slot's new contents written; a LOCKED slot never changes (R178). -/
def writeSlot (n : Nat) (k : KeySlot) (s : State) : State :=
  match slotAt s n with
  | .locked _ => s
  | _ => { s with keys := s.keys.setIfInBounds n k }

end Sys2Proof.Machine
end

