-- ==== Sys2Proof/Machine/RefuseOps.lean ====
section
/-! DEFINITION. Ends of a transaction without an accept: the expiry and release of tear contexts (R76,
R82), the refusal sequence (R36), the withdrawal of an INTENT (R95), the clone action (R101) and the
refusal of a clone finding in CLAIMING (R39). -/

namespace Sys2Proof.Machine

/-! ### Tear contexts leaving (R76, R82) -/

/-- The TORN record of a context (R76). -/
def tornRecord (s : State) (c : Context) : JournalRecord :=
  { stampRecord s .torn c.uid c.cls c.side with
    tcBefore := some c.baseTc
    tcAfter := if c.confirmed.first || c.confirmed.second then some (c.baseTc + 1) else none
    flags := ⟨c.flags, false, true, false⟩ }

/-- The context of a UID, when one stands (R70). -/
def contextOf (s : State) (u : Uid) : Option Context := s.contexts.find? (fun c => decide (c.uid = u))

/-- The context of a UID taken out of the Recovery Table without a record. -/
def removeContext (u : Uid) (s : State) : State :=
  { s with contexts := s.contexts.filter (fun c => decide (c.uid ≠ u)) }

/-- A context expired: it leaves the table and its TORN record is offered (R76). -/
def expireContext (c : Context) (s : State) : State :=
  offerRecord (tornRecord s c) (removeContext c.uid s)

/-- The context that a side's Tap Controller holds (R70, R82). -/
def heldContext (s : State) (sd : Side) : Option Context :=
  s.contexts.find? (fun c => decide (c.holder = some sd))

/-- The context of a UID changed. -/
def modContext (u : Uid) (f : Context → Context) (s : State) : State :=
  { s with contexts := s.contexts.map (fun c => if c.uid = u then f c else c) }

/-- The context that a Tap Controller holds released; one with its overdue mark set expires (R82). -/
def releaseContext (sd : Side) (s : State) : State :=
  match heldContext s sd with
  | none => s
  | some c =>
    if c.overdue then expireContext c s
    else modContext c.uid (fun c => { c with holder := none }) s

/-! ### The refusal sequence (R36) -/

/-- The class of a journal record of a transaction (R36, R190). -/
def tapClass (s : State) (sd : Side) : Nat :=
  match (s.taps.get sd).record.block0 with
  | some b => if blockClass b ≤ 7 then blockClass b else 0
  | none => 0

/-- The flags of a refusal record: those check 10 has returned before a later refusal (R36). -/
def refusalFlags (r : TapRecord) : JournalFlags :=
  match r.decision with
  | some d =>
    match d.accept with
    | .entry => ⟨d.flags, false, false, false⟩
    | .exit => ⟨d.flags, false, false, false⟩
    | _ => noFlags
  | none => noFlags

/-- The REFUSED or BLOCKED record of a transaction (R36, R190). -/
def refusalRecord (s : State) (sd : Side) (kind : JournalKind) (code : RefusalCode) : JournalRecord :=
  let r := (s.taps.get sd).record
  { stampRecord s kind (tapUid s sd) (tapClass s sd) sd with
    refusal := some code
    tcBefore := r.cardTc
    fareVersion := r.fareVersion
    hotVersion := r.hotlist.map HotAnswer.version
    flags := refusalFlags r }

/-- The counters of a refusal (R36, R195). -/
def countRefusal (code : RefusalCode) (c : Counters) : Counters :=
  { c with
    refusals := advance32 c.refusals
    cloneRefusals := if code = .cloneSuspect then advance32 c.cloneRefusals else c.cloneRefusals }

/-- The record of a refusal offered, and its counters advanced (R36, item 3). -/
def recordRefusal (sd : Side) (kind : JournalKind) (code : RefusalCode) (s : State) : State :=
  modCounters (countRefusal code)
    (offerRecord (refusalRecord s sd kind code) (modRecord sd (fun r => { r with refusal := some code }) s))

/-- Items 1 to 3 of the refusal sequence, and the release of a held context (R36, R82). The manual does
not order the record of the refusal and the TORN record of an overdue context released; the refusal's is
offered first (assumption log 41). -/
def refuseSequence (sd : Side) (kind : JournalKind) (code : RefusalCode) (s : State) : State :=
  releaseContext sd
    (recordRefusal sd kind code (startStop sd (categoryOf code) (releaseReservations sd s)))

/-- A refusal, ending in HALT (R36). -/
def refuse (sd : Side) (code : RefusalCode) (s : State) : State :=
  askHalt sd (refuseSequence sd .refused code s)

/-! ### The Sighting Table (R89 to R91) -/

/-- Every unpinned entry whose age has reached its period is removed (R90). -/
def purgeSightings (s : State) : State :=
  { s with sightings := s.sightings.filter (fun e => e.pin || !outlived s e.sighting) }

/-- The entry of a UID, when one stands (R89). -/
def entryOf (s : State) (u : Uid) : Option SightEntry :=
  s.sightings.find? (fun e => decide (e.sighting.uid = u))

/-- The entry of a UID changed in its place (R89). -/
def modEntry (u : Uid) (f : SightEntry → SightEntry) (s : State) : State :=
  { s with sightings := s.sightings.map (fun e => if e.sighting.uid = u then f e else e) }

/-- The entry of a UID removed. -/
def removeEntry (u : Uid) (s : State) : State :=
  { s with sightings := s.sightings.filter (fun e => decide (e.sighting.uid ≠ u)) }

/-- The unpinned entry of the oldest line time, the one inserted earliest on equal times (R91). -/
def oldestUnpinned : List SightEntry → Option SightEntry
  | [] => none
  | e :: rest =>
    match oldestUnpinned rest with
    | none => if e.pin then none else some e
    | some o => if e.pin then some o else if e.sighting.time ≤ o.sighting.time then some e else some o

/-- An entry inserted, after an eviction when the table holds 2048 (R91). -/
def insertEntry (e : SightEntry) (s : State) : State :=
  if s.sightings.length < 2048 then { s with sightings := s.sightings ++ [e] }
  else
    match oldestUnpinned s.sightings with
    | some o => { s with sightings := s.sightings.erase o ++ [e] }
    | none => s

/-! ### Clone action (R101, R102) -/

/-- The reason a notice carries; for a double reuse R102 names none, and the value is free
(assumption log 8). -/
def noticeReason : FindingReason → CloneReason
  | .contest => .contest
  | .stateBehind => .stateBehind
  | .sameState => .sameState
  | .doubleReuse => Config.doubleReuseReason

/-- A clone action with this gate as a party: the UID offered to the local hotlist, and a CLONE notice
joining the insertion queue (R101, R102), which the third example of chapter 5 does not count (assumption log
53). -/
def cloneParty (sd : Side) (reason : FindingReason) (s : State) : State :=
  let u := tapUid s sd
  let n : Notice :=
    { uid := u, tc := checkedTc s sd, reason := noticeReason reason, source := ownSource s sd }
  modRing (joinInsertion (.notice n)) (offerLocal u s)

/-- The clone mark taken up at the transaction's commit or tear (R42). -/
def takeUpMark (sd : Side) (s : State) : State :=
  match (s.taps.get sd).record.cloneMark with
  | none => s
  | some reason => cloneParty sd reason s

/-! ### Withdrawal of an INTENT (R39, R95) -/

/-- The entry of a withdrawn INTENT set back: to the sighting that gave the finding (for two own INTENTs,
assumption log 51), else to the displaced sighting with the contested flag it had, whatever notice came
meanwhile (assumption log 52), else removed (R95). -/
def setBackEntry (u : Uid) (finding : Option Displaced) (e : SightEntry) (s : State) : State :=
  match finding, e.displaced with
  | some d, _ => modEntry u (fun _ => ⟨d.sighting, d.contested, false, none⟩) s
  | none, some d => modEntry u (fun _ => ⟨d.sighting, d.contested, false, none⟩) s
  | none, none => removeEntry u s

/-- This side's own INTENT stands pinned in an entry (R89, R95). -/
def ownPinned (s : State) (sd : Side) (e : SightEntry) : Bool :=
  e.pin && decide (e.sighting.kind = .intent) && decide (e.sighting.source = ownSource s sd)

/-- The INTENT of a transaction withdrawn: its entry set back, unless another sighting has replaced it,
and its frame removed from the insertion queue when still there (R39, R95). -/
def withdrawIntent (sd : Side) (finding : Option Displaced) (s : State) : State :=
  let u := tapUid s sd
  let cleared :=
    match entryOf s u with
    | some e => if ownPinned s sd e then setBackEntry u finding e s else s
    | none => s
  let queue :=
    match (s.taps.get sd).record.intent with
    | some x => modRing (withdrawMsg (.sighting x)) cleared
    | none => cleared
  purgeSightings queue

/-- A clone finding in CLAIMING: hold stopped, INTENT withdrawn, reservations released, clone action
taken as a party, and the refusal sequence of CLONE_SUSPECT (R39). -/
def refuseClone (sd : Side) (reason : FindingReason) (finding : Option Displaced) (s : State) : State :=
  let withdrawn := withdrawIntent sd finding (modTap sd (fun t => { t with hold := none }) s)
  refuse sd .cloneSuspect (cloneParty sd reason (releaseReservations sd withdrawn))

end Sys2Proof.Machine
end

