-- ==== Sys2Proof/Machine/SightingOps.lean ====
section
/-! DEFINITION. The Sighting Monitor (chapter 5): arrival rules (R92 to R94), own sightings (R95, R96),
the clone check (R98), the judging of transactions in flight (R99, R100) and reuse (R104). -/

namespace Sys2Proof.Machine

/-- A sighting is consistent (R87). -/
def consistent (x : Sighting) : Bool :=
  match x.kind with
  | .intent => decide (x.result = x.base + 1)
  | .torn => decide (x.result = x.base + 1)
  | .commit => decide (x.result = x.base) || decide (x.result = x.base + 1)
  | .unused => decide (x.result = x.base)

/-- An entry whose sighting is replaced: the contested flag is kept, pin and displaced sighting go
(R89). -/
def replaced (e : SightEntry) (x : Sighting) : SightEntry := ⟨x, e.contested, false, none⟩

/-- A new entry, unpinned and not contested (R92). -/
def freshEntry (x : Sighting) : SightEntry := ⟨x, false, false, none⟩

/-- An INTENT arriving on an entry (R93). -/
def intentOn (e : SightEntry) (x : Sighting) : SightEntry × Option FindingReason :=
  if e.sighting.source = x.source ∧ e.pin = false then (replaced e x, none)
  else
    match e.sighting.kind with
    | .intent =>
      if e.sighting.base < x.base then ({ replaced e x with contested := true }, some .contest)
      else ({ e with contested := true }, some .contest)
    | .torn =>
      if x.base < e.sighting.base then (e, some .stateBehind) else (replaced e x, none)
    | _ =>
      if x.base < e.sighting.result then (e, some .stateBehind) else (replaced e x, none)

/-- The double reuse of R94: two REUSE commits of one state from two sources. -/
def doubleReuse (e : SightEntry) (x : Sighting) : Bool :=
  decide (x.kind = .commit) && decide (x.base = x.result) && decide (e.sighting.kind = .commit) &&
    decide (e.sighting.base = e.sighting.result) && decide (e.sighting.source ≠ x.source) &&
    decide (e.sighting.result = x.result)

/-- A COMMIT, TORN or UNUSED applied by items 2 and 3 of R94, with the double-reuse comparison. -/
def stateOn (e : SightEntry) (x : Sighting) : SightEntry × Option FindingReason :=
  if e.sighting.result ≤ x.result then
    (replaced e x, if doubleReuse e x then some .doubleReuse else none)
  else (e, none)

/-- A COMMIT, TORN or UNUSED arriving on an entry (R94). -/
def otherOn (e : SightEntry) (x : Sighting) : SightEntry × Option FindingReason :=
  if e.sighting.source = x.source ∧ e.pin = false then (replaced e x, none) else stateOn e x

/-- An own COMMIT, TORN or UNUSED on an entry (R96): it replaces the pinned INTENT of its transaction, or
an unpinned entry of its source; any other by R94. -/
def ownOn (e : SightEntry) (x : Sighting) : SightEntry × Option FindingReason :=
  if e.pin = true ∧ e.sighting.kind = .intent ∧ e.sighting.source = x.source ∧ x.kind ≠ .unused then
    (replaced e x, none)
  else otherOn e x

/-- An arriving sighting on an entry, by its kind (R92). -/
def arrivalOn (e : SightEntry) (x : Sighting) : SightEntry × Option FindingReason :=
  if x.kind = .intent then intentOn e x else otherOn e x

/-- A sighting applied to the table by a rule for a standing entry, or inserted; the reason of the clone
action that the rule gives, if any, comes with it. -/
def applySighting (rule : SightEntry → Sighting → SightEntry × Option FindingReason) (x : Sighting)
    (s : State) : State × Option FindingReason :=
  match entryOf s x.uid with
  | none => (insertEntry (freshEntry x) s, none)
  | some e => (modEntry x.uid (fun _ => (rule e x).1) s, (rule e x).2)

/-! ### The clone check (R98) -/

/-- The reason of a finding against a sighting, for a card TC `t` (R98). -/
def findingReason (t : Nat) (x : Sighting) : FindingReason :=
  match x.kind with
  | .intent => .contest
  | .commit => if x.result = t + 1 then .sameState else .stateBehind
  | _ => .stateBehind

/-- The clone check finds a clone: card TC `t` of a transaction of source `src` against a sighting
(R98). -/
def cloneFound (t : Nat) (src : Source) (x : Sighting) : Bool :=
  match x.kind with
  | .commit => decide (t < x.result)
  | .torn => decide (t < x.base)
  | .unused => decide (t < x.result)
  | .intent => decide (x.source ≠ src) && decide (t ≤ x.base)

/-- The clone check against a sighting, with the reason of its finding (R98). -/
def cloneCheck (t : Nat) (src : Source) (x : Sighting) : Option FindingReason :=
  if cloneFound t src x then some (findingReason t x) else none

/-- The clone check at CLAIMING entry against the displaced sighting: a contested one always finds
(R98, R99). -/
def claimCheck (t : Nat) (src : Source) (d : Displaced) : Option FindingReason :=
  if d.contested || cloneFound t src d.sighting then some (findingReason t d.sighting) else none

/-! ### Judging a transaction in flight (R99, R100) -/

/-- The sighting that a withdrawal puts in the entry after a finding against it: contested when it is an
INTENT (R95). -/
def findingEntry (x : Sighting) (contested : Bool) : Displaced :=
  ⟨x, contested || decide (x.kind = .intent)⟩

/-- A finding of a side's transaction: it refuses it in CLAIMING (R39), and sets its clone mark in
WRITING and CONFIRMING, where the first reason stays (R42, R100). Where the sighting is the INTENT of this
gate's other side, which R95, item 2, keeps out of the table, the entry takes it all the same by the rule of
the withdrawal (assumption log 51). -/
def takeFinding (sd : Side) (reason : FindingReason) (x : Sighting) (s : State) : State :=
  if tapIn s sd .claiming then refuseClone sd reason (some (findingEntry x false)) s
  else
    modRecord sd
      (fun r => { r with cloneMark := match r.cloneMark with
        | some first => some first
        | none => some reason }) s

/-- A side's transaction for the sighting's UID judged against it; `action` is the clone action that the
rules gave (R99, R100). -/
def judgeSide (sd : Side) (x : Sighting) (action : Option FindingReason) (s : State) : State :=
  if inFlight s sd x.uid then
    match cloneCheck (checkedTc s sd) (ownSource s sd) x with
    | some reason => takeFinding sd reason x s
    | none =>
      match action with
      | some reason => takeFinding sd reason x s
      | none => s
  else s

/-- A bystander's clone action, taken when a rule gave one and no transaction of this gate for the UID
is in flight (R101). -/
def bystander (u : Uid) (action : Option FindingReason) (busy : Bool) (s : State) : State :=
  if action.isSome && !busy then offerLocal u s else s

/-- A transaction of this gate for a UID is in flight at either side (R101). -/
def anyInFlight (s : State) (u : Uid) : Bool := inFlight s .a u || inFlight s .b u

/-- A foreign sighting taken from the ring: screened, applied, then judged (R92, R99, R101). -/
def arriveSighting (x : Sighting) (s : State) : State :=
  let s := purgeSightings s
  if consistent x && !outlived s x then
    let r := applySighting arrivalOn x s
    let busy := anyInFlight s x.uid
    bystander x.uid r.2 busy (judgeSide .b x r.2 (judgeSide .a x r.2 r.1))
  else s

/-- An own COMMIT, TORN or UNUSED of a side: applied to the table, queued for the ring, and judged
against the transaction of the other side (R96, R97, R99). -/
def ownSighting (sd : Side) (x : Sighting) (s : State) : State :=
  let s := purgeSightings s
  let r := applySighting ownOn x s
  let busy := anyInFlight s x.uid
  bystander x.uid r.2 busy
    (judgeSide sd.other x r.2 (modRing (joinInsertion (.sighting x)) r.1))

/-- An own sighting of a side made now (R88). -/
def makeSighting (s : State) (sd : Side) (u : Uid) (kind : SightKind) (base result : Nat) : Sighting :=
  { uid := u, kind := kind, base := base, result := result, source := ownSource s sd, side := sd
    time := s.clock.lineTime }

/-! ### CLAIMING entry (R38, R95, R99) -/

/-- The INTENT takes the entry of its UID: inserted, or in the place of the entry, which becomes its
displaced sighting (R95, item 3). -/
def claimEntry (x : Sighting) (s : State) : State :=
  match entryOf s x.uid with
  | none => insertEntry ⟨x, false, true, none⟩ s
  | some _ => modEntry x.uid (fun e => ⟨x, false, true, some ⟨e.sighting, e.contested⟩⟩) s

/-- The entry is the pinned INTENT of the other Tap Controller (R95, item 2). -/
def pinnedByOther (s : State) (sd : Side) (e : Option SightEntry) : Bool :=
  match e with
  | some e => ownPinned s sd.other e
  | none => false

/-- The finding of a new INTENT at its CLAIMING entry, with the sighting that gave it (R99, item 1). -/
def claimFinding (s : State) (sd : Side) (t : Nat) (before : Option SightEntry) :
    Option (FindingReason × Displaced) :=
  match before with
  | none => none
  | some e =>
    if ownPinned s sd.other e then some (.contest, findingEntry e.sighting e.contested)
    else
      (claimCheck t (ownSource s sd) ⟨e.sighting, e.contested⟩).map
        (fun reason => (reason, findingEntry e.sighting e.contested))

/-- CLAIMING entry, one event: the own INTENT entered and placed in the insertion queue, the claim hold
of 20 ms started, the other side's transaction for the UID judged, and the clone check applied (R38,
R95, R99). -/
def enterClaiming (sd : Side) (s : State) : State :=
  let s := purgeSightings s
  let u := tapUid s sd
  let t := checkedTc s sd
  let x := makeSighting s sd u .intent t (t + 1)
  let before := entryOf s u
  let entered := if pinnedByOther s sd before then s else claimEntry x s
  let placed :=
    modRecord sd (fun r => { r with holdsInsertion := false, intent := some x })
      (modRing (placeIntent (.sighting x)) entered)
  let holding := modTap sd (fun t => { t with state := .claiming, hold := some 20 }) placed
  let judged := judgeSide sd.other x (some .contest) holding
  match claimFinding s sd t before with
  | some (reason, d) => refuseClone sd reason (some d) judged
  | none => judged

/-! ### Clone notices and reuse (R103, R104) -/

/-- The contested flag of the entry of a UID set (R103). -/
def contestEntry (u : Uid) (s : State) : State := modEntry u (fun e => { e with contested := true }) s

/-- A CLONE notice from another source: the UID offered to the local hotlist, and the contested flag of
its entry set (R103). -/
def arriveNotice (u : Uid) (s : State) : State := contestEntry u (offerLocal u (purgeSightings s))

/-- The reuse test of check 9 is answered found (R104). -/
def reuseFound (s : State) (sd : Side) (u : Uid) (t reuseWindow : Nat) : Bool :=
  match entryOf (purgeSightings s) u with
  | none => false
  | some e =>
    decide (e.sighting.kind = .unused) && decide (e.sighting.side = sd) &&
      decide (e.sighting.result = t) && !e.contested &&
      decide (ageOf s e.sighting.time < reuseWindow)

end Sys2Proof.Machine
end

