-- ==== Sys2Proof/Machine/RecoveryOps.lean ====
section
/-! DEFINITION. The Recovery Table (chapter 4): creation and update of tear contexts (R71 to R74),
deadlines (R75), take-up and classification (R77, R78), and the tear of a transaction (R46). -/

namespace Sys2Proof.Machine

/-- The unheld context with the earliest deadline, the one created first on equal deadlines (R72). -/
def earliestUnheld : List Context → Option Context
  | [] => none
  | c :: rest =>
    match earliestUnheld rest with
    | none => if c.holder.isNone then some c else none
    | some o =>
      if c.holder.isNone && decide (c.deadline ≤ o.deadline) then some c else some o

/-- A full table gives up the context of R72 before a creation. -/
def makeRoom (s : State) : State :=
  if s.contexts.length < 32 then s
  else
    match earliestUnheld s.contexts with
    | some c => expireContext c s
    | none => s

/-- The context of a torn transaction, from the items of its hand-off (R46, R71). -/
def tornContext (s : State) (sd : Side) : Context :=
  let r := (s.taps.get sd).record
  let d := r.decision
  { uid := tapUid s sd
    side := sd
    cls := tapClass s sd
    baseTc := checkedTc s sd
    target := r.target.getD .a
    journeyImage := r.journeyImage.getD []
    historyImage := r.historyImage
    confirmed := r.confirmed
    fare := (d.map Decision.fare).getD 0
    balanceAfter := (d.map Decision.balanceAfter).getD 0
    flags := (d.map Decision.flags).getD noFareFlags
    created := s.clock.lineTime
    deadline := s.clock.lineTime + 20
    holder := none
    overdue := false }

/-- A context entered at the end of the order of creation, when there is a place. -/
def enterContext (c : Context) (s : State) : State :=
  if s.contexts.length < 32 then { s with contexts := s.contexts ++ [c] } else s

/-- The TORN sighting of a context (R74). -/
def tornSighting (s : State) (c : Context) : Sighting :=
  makeSighting s c.side c.uid .torn c.baseTc (c.baseTc + 1)

/-- A tear context created: an existing context of the UID expires, a full table gives one up, and the
new one is entered (R71, R72). -/
def createContext (sd : Side) (s : State) : State :=
  let c := tornContext s sd
  let s :=
    match contextOf s c.uid with
    | some old => expireContext old s
    | none => s
  enterContext c (makeRoom s)

/-- The held context updated by a tear of its recovery: confirmed set replaced, holder none, and an
overdue one expires at once (R73). -/
def updateContext (c : Context) (sd : Side) (s : State) : State :=
  let confirmed := (s.taps.get sd).record.confirmed
  let updated := { c with confirmed := confirmed, holder := none }
  if c.overdue then expireContext updated s else modContext c.uid (fun _ => updated) s

/-- The hand-off of a tear: the context created or updated with its TORN sighting, the grant slot and
journal reservation given back, and the clone mark taken up (R46, R71, R73, R74). -/
def tearHandOff (sd : Side) (s : State) : State :=
  let handed :=
    match heldContext s sd with
    | some c => ownSighting c.side (tornSighting s c) (updateContext c sd s)
    | none => ownSighting sd (tornSighting s (tornContext s sd)) (createContext sd s)
  takeUpMark sd (releaseGrantSlot sd (releaseJournal sd handed))

/-- A tear: the hand-off, STOP with TAP_AGAIN, and HALT (R46, R47). -/
def tear (sd : Side) (s : State) : State :=
  askHalt sd (startStop sd .tapAgain (tearHandOff sd s))

/-! ### Deadlines (R75) -/

/-- A context inserted in the order of deadlines, behind those of the same deadline. -/
def insertByDeadline (c : Context) : List Context → List Context
  | [] => [c]
  | d :: rest => if c.deadline < d.deadline then c :: d :: rest else d :: insertByDeadline c rest

/-- The contexts whose deadline line time has reached, in the order of R70. -/
def dueContexts (s : State) : List Context :=
  (s.contexts.filter (fun c => decide (c.deadline ≤ s.clock.lineTime))).foldl
    (fun l c => insertByDeadline c l) []

/-- A context reaching its deadline: it expires when unheld, and gets its overdue mark when held (R75). -/
def reachDeadline (s : State) (c : Context) : State :=
  if c.holder.isNone then expireContext c s else modContext c.uid (fun c => { c with overdue := true }) s

/-- Every deadline that line time has reached is taken (R75). -/
def takeDeadlines (s : State) : State := (dueContexts s).foldl reachDeadline s

/-! ### Recovery (R77, R78) -/

/-- The 32 bytes of a slot as read (R4). -/
def slotBytes (r : TapRecord) (slot : SlotId) : List Byte :=
  r.blocks.getD (slotFirstBlock slot - 1) [] ++ r.blocks.getD (slotFirstBlock slot) []

/-- The class of a taken-up context against the slot choice of check 6 (R78). -/
def classifyContext (r : TapRecord) (c : Context) : RecoveryClass :=
  let tc := r.cardTc.getD 0
  if r.validSlot = some c.target then
    if tc = c.baseTc + 1 ∧ slotBytes r c.target = c.journeyImage then .committed else .other
  else if tc = c.baseTc then .notLanded
  else .other

/-- The context that check 7 takes up: one of this UID, of this side, unheld (R77). -/
def takeUpContext (s : State) (sd : Side) : Option Context :=
  match contextOf s (tapUid s sd) with
  | none => none
  | some c => if c.side = sd ∧ c.holder = none then some c else none

end Sys2Proof.Machine
end

