-- ==== Sys2Proof/Machine/GateOps.lean ====
section
/-! DEFINITION. The Gate Controller (chapter 7): the grant queue, withdrawal unused (R135), entry to
OUT_OF_SERVICE and FREE (R126, R139), the pass timer (R133), lane events (R130 to R132) and alarms
(R136, R138). -/

namespace Sys2Proof.Machine

/-- The pass timer started with the pass window of the ACTIVE bank's table (R133). -/
def startPassTimer (s : State) : State :=
  match s.store.params with
  | some p => modGate (fun g => { g with passTimer := .running (p.passWindow * 1000) }) s
  | none => s

/-- The pass timer stopped (R133). -/
def stopPassTimer (s : State) : State := modGate (fun g => { g with passTimer := .stopped }) s

/-- The UNUSED record of a grant (R135). -/
def unusedRecord (s : State) (emergency : Bool) (g : Grant) : JournalRecord :=
  { stampRecord s .unused g.uid g.cls g.side with
    tcAfter := some g.tc
    flags := ⟨noFareFlags, false, false, emergency⟩ }

/-- The outcomes of a grant withdrawn unused: its record, the unused counter and its UNUSED sighting
(R135). -/
def giveUpGrant (emergency : Bool) (s : State) (g : Grant) : State :=
  let recorded :=
    modCounters (fun c => { c with unused := advance32 c.unused })
      (offerRecord (unusedRecord s emergency g) s)
  ownSighting g.side (makeSighting s g.side g.uid .unused g.tc g.tc) recorded

/-- Every grant of the queue withdrawn unused, the head first (R126, R139, R145); R139 gives this
order of FREE, and elsewhere it is the model's choice (assumption log 38). -/
def withdrawAll (emergency : Bool) (s : State) : State :=
  s.gate.queue.foldl (giveUpGrant emergency) (modGate (fun g => { g with queue := [] }) s)

/-- An alarm other than FORCED set to none (R126, R139). -/
def dropAlarm : Option AlarmKind → Option AlarmKind
  | some .forced => some .forced
  | _ => none

/-- Entry to OUT_OF_SERVICE or FREE: grants withdrawn unused, pass timer stopped, alarms but FORCED set
to none (R126, R139). -/
def shutLane (emergency : Bool) (s : State) : State :=
  modGate (fun g => { g with alarm := dropAlarm g.alarm, passTimer := .stopped })
    (withdrawAll emergency s)

/-- The gate state derived anew after one of its conditions has changed (R125): in FREE and in
OUT_OF_SERVICE no grant, pass timer or alarm but FORCED stands. -/
def deriveGate (s : State) : State :=
  match gateState s with
  | .free => shutLane true s
  | .outOfService => shutLane false s
  | _ => s

/-- A grant handed over at commit joins the queue, becomes head of a CLOSED gate, or is withdrawn unused
at once in OUT_OF_SERVICE and FREE (R128, R129). The slot was counted, so there is a place. -/
def handOverGrant (g : Grant) (s : State) : State :=
  let before := gateState s
  let queued :=
    modGate
      (fun gt =>
        let freed : Gate := { gt with reserved := gt.reserved - 1 }
        if freed.queue.length + freed.reserved < 2 then { freed with queue := freed.queue ++ [g] }
        else freed) s
  deriveGate (if before = .closed then startPassTimer queued else queued)

/-- An alarm raised: set when none stands, FORCED over any other; the running pass timer is paused
(R136). -/
def raiseAlarm (k : AlarmKind) (s : State) : State :=
  modGate
    (fun g =>
      { g with
        alarm :=
          match g.alarm with
          | none => some k
          | some old => if k = .forced then some .forced else some old
        passTimer :=
          match g.passTimer with
          | .running left => .paused left
          | t => t }) s

/-- The entered marks of both grants cleared (R132). -/
def clearMarks (q : List Grant) : List Grant := q.map (fun g => { g with entered := false })

/-- An alarm of any kind cleared: marks cleared, and the pass timer resumed when it was paused, started
for a head that has none running (R138). -/
def clearAlarm (s : State) : State :=
  let cleared := modGate (fun g => { g with alarm := none, queue := clearMarks g.queue }) s
  match s.gate.passTimer, s.gate.queue with
  | .paused left, _ => modGate (fun g => { g with passTimer := .running left }) cleared
  | _, [] => cleared
  | _, _ => startPassTimer cleared

/-- A new head or none after the head has left the queue: the pass timer starts for a head not entered,
and is stopped otherwise (R131, R134). -/
def nextHead (s : State) : State :=
  match s.gate.queue with
  | g :: _ => if g.entered then stopPassTimer s else startPassTimer s
  | [] => stopPassTimer s

/-- The occupancy changed (R130). -/
def setOccupancy (n : Nat) (s : State) : State := modGate (fun g => { g with occupancy := n }) s

/-- The head's entered mark set, and the pass timer stopped (R130, R133). -/
def enterHead (s : State) : State :=
  modGate
    (fun g =>
      { g with
        queue :=
          match g.queue with
          | h :: rest => { h with entered := true } :: rest
          | [] => []
        passTimer := .stopped }) s

/-- A second grant of the head's direction that is not entered (R130). -/
def secondCanEnter (q : List Grant) : Bool :=
  match q with
  | h :: g :: _ => decide (g.side = h.side) && !g.entered
  | _ => false

/-- The second's entered mark set (R130). -/
def enterSecond (s : State) : State :=
  modGate
    (fun g =>
      { g with
        queue :=
          match g.queue with
          | h :: x :: rest => h :: { x with entered := true } :: rest
          | q => q }) s

/-- The effect of an ENTER on grants and gate, by the gate state and the occupancy before it (R130). -/
def enterEffect (sd : Side) (st : GateState) (occupancy : Nat) (s : State) : State :=
  match st with
  | .closed => raiseAlarm (if 2 ≤ occupancy then .tailgate else .intrusion) s
  | .opened dir =>
    if 2 ≤ occupancy then raiseAlarm .tailgate s
    else if dir = sd then enterHead s
    else raiseAlarm .intrusion s
  | .passing dir =>
    if 2 ≤ occupancy then raiseAlarm .tailgate s
    else if dir = sd then
      if secondCanEnter s.gate.queue then enterSecond s else raiseAlarm .tailgate s
    else raiseAlarm .intrusion s
  | _ => s

/-- An ENTER: the occupancy raised by 1, saturating at 2, and its effect (R130). -/
def laneEnter (sd : Side) (s : State) : State :=
  enterEffect sd (gateState s) s.gate.occupancy (setOccupancy (min (s.gate.occupancy + 1) 2) s)

/-- The head consumed by a passage (R131). -/
def consumeHead (s : State) : State :=
  nextHead
    (modCounters (fun c => { c with passages := advance32 c.passages })
      (modGate (fun g => { g with queue := g.queue.drop 1 }) s))

/-- A backing out: the entered mark of the grant entered last cleared; when it is the head's, the pass
timer starts anew (R132). -/
def backOut (s : State) : State :=
  match s.gate.queue with
  | h :: x :: rest =>
    if x.entered then modGate (fun g => { g with queue := h :: { x with entered := false } :: rest }) s
    else startPassTimer (modGate (fun g => { g with queue := { h with entered := false } :: x :: rest }) s)
  | [h] => startPassTimer (modGate (fun g => { g with queue := [{ h with entered := false }] }) s)
  | [] => s

/-- A PASSED: the occupancy lowered by 1, stopping at 0; in PASSING the far side consumes the head and
the entry side backs out (R130 to R132). -/
def lanePassed (sd : Side) (s : State) : State :=
  let moved := setOccupancy (s.gate.occupancy - 1) s
  match gateState s with
  | .passing dir => if dir = sd then backOut moved else consumeHead moved
  | _ => moved

/-- A CLEAR: occupancy 0; in PASSING both marks cleared and the pass timer started; an alarm other than
FORCED cleared (R130, R132, R138). -/
def laneClear (s : State) : State :=
  let emptied := setOccupancy 0 s
  match gateState s with
  | .passing _ => startPassTimer (modGate (fun g => { g with queue := clearMarks g.queue }) emptied)
  | .alarm .forced => emptied
  | .alarm _ => clearAlarm emptied
  | _ => emptied

/-- A FORCED: the alarm in every gate state but FREE (R136). -/
def laneForced (s : State) : State :=
  if gateState s = .free then s else raiseAlarm .forced s

/-- An OCCUPIED_LONG: alarm OBSTRUCTED in CLOSED, OPEN and PASSING (R136). -/
def laneOccupied (s : State) : State :=
  match gateState s with
  | .closed => raiseAlarm .obstructed s
  | .opened _ => raiseAlarm .obstructed s
  | .passing _ => raiseAlarm .obstructed s
  | _ => s

/-- The pass timer expires in OPEN: the head is withdrawn unused, and the second becomes head (R134). -/
def passExpiry (s : State) : State :=
  match s.gate.queue, gateState s with
  | h :: rest, .opened _ =>
    giveUpGrant false (nextHead (modGate (fun g => { g with queue := rest }) s)) h
  | _, _ => s

/-- ALARM_RELEASE: an alarm of any kind cleared in any gate state, and the occupancy set to 0 (R141). -/
def releaseAlarm (s : State) : State :=
  let emptied := setOccupancy 0 s
  if s.gate.alarm.isSome then clearAlarm emptied else emptied

end Sys2Proof.Machine
end

