-- ==== Sys2Proof/Machine/StoreOps.lean ====
section
/-! DEFINITION. The Table Store and the Hotlist Store as memories: fare banks and activation (R166 to
R168), the store arbiter (R174, R117), lookups (R111), the merge (R116 to R118) and the full swap
(R121). -/

namespace Sys2Proof.Machine

/-! ### Fare banks -/

/-- A fare bank replaced. -/
def setBank (id : BankId) (b : Bank) (t : TableStore) : TableStore :=
  match id with
  | .x => { t with bankX := b }
  | .y => { t with bankY := b }

/-- A fare bank changed. -/
def modBank (id : BankId) (f : Bank → Bank) (s : State) : State :=
  modStore (fun t => setBank id (f (bankOf t id)) t) s

/-- A reference taken (R167). -/
def raiseRefs (b : Bank) : Bank := { b with refs := b.refs + 1 }

/-- A reference given back: a DRAINING bank whose count falls to 0 becomes EMPTY (R167). -/
def lowerRefs (b : Bank) : Bank :=
  let n := b.refs - 1
  if b.state = .draining ∧ n = 0 then Bank.cold else { b with refs := n }

/-- The bank reference of a transaction released, if it holds one (R46, R167). -/
def releaseBank (sd : Side) (s : State) : State :=
  match (s.taps.get sd).record.bank with
  | some id => modBank id lowerRefs s
  | none => s

/-- What becomes of a bank when the other is activated: the ACTIVE one drains, or empties when no
transaction references it (R168). -/
def retireBank (b : Bank) : Bank :=
  if b.state = .active then
    if 0 < b.refs then { b with state := .draining } else Bank.cold
  else b

/-- The copy of the active parameters taken from a bank (R168). -/
def paramsOf (b : Bank) : ActiveParams :=
  let t := parseFareTable b.image
  { version := b.version, activation := b.activation, passWindow := t.passWindow
    reuseWindow := t.reuseWindow, retention := t.retention }

/-- Activation of a PENDING bank (R168): the Sighting Table's periods change with it (R90). -/
def activateBank (id : BankId) (s : State) : State :=
  let b := bankOf s.store id
  purgeSightings
    (modStore (fun t => { t with params := some (paramsOf b) })
      (modBank (otherBank id) retireBank (modBank id (fun b => { b with state := .active }) s)))

/-- A PENDING bank is due (R168). -/
def bankDue (s : State) (b : Bank) : Bool :=
  s.clock.isSet && !s.clock.hold && decide (b.activation ≤ s.clock.lineTime / 60)

/-- The activation test of R168. -/
def activateIfDue (s : State) : State :=
  match bankIn s.store .pending with
  | none => s
  | some id => if bankDue s (bankOf s.store id) then activateBank id s else s

/-- Line time has moved, or a hold has ended: activation, tear-context deadlines and sighting expiry are
taken (R160, R161, R75, R90, R168), in this order, which the manual leaves open (assumption log 46). -/
def lineTimeMoved (s : State) : State := purgeSightings (takeDeadlines (activateIfDue s))

/-! ### The store arbiter -/

/-- A Tap Controller's request to the arbiter (R174). -/
def askStore (sd : Side) (ask : TapAsk) (s : State) : State :=
  modArb (fun a => { a with tap := a.tap.set sd (some ask) }) s

/-- The loader's request to the arbiter (R174). -/
def askLoader (ask : LoaderAsk) (s : State) : State := modArb (fun a => { a with loader := some ask }) s

/-- A Tap Controller request waits (R117). -/
def tapWaits (a : Arbiter) : Bool := a.tap.a.isSome || a.tap.b.isSome

/-- The Tap Controller to be granted: the one that waits, or the one the alternation mark names (R174).-/
def tapPick (a : Arbiter) : Option Side :=
  match a.tap.a, a.tap.b with
  | some _, some _ => some a.mark
  | some _, none => some .a
  | none, some _ => some .b
  | none, none => none

/-- One waiting request granted, in the order of R174. -/
def beginGrant (a : Arbiter) : Arbiter :=
  match tapPick a with
  | some sd =>
    { a with
      tap := a.tap.set sd none
      inUse := (a.tap.get sd).map (StoreGrant.tap sd)
      mark := sd.other }
  | none =>
    match a.loader with
    | some ask => { a with loader := none, inUse := some (.loader ask) }
    | none => if a.merge then { a with merge := false, inUse := some .merge } else a

/-- The Merge Engine at an entry boundary: it suspends while a Tap Controller request waits, and asks
its next step otherwise (R117). -/
def mergeLook (s : State) : State :=
  if s.hot.merge = .merging then
    if tapWaits s.arb then
      modArb (fun a => { a with merge := false }) (modHot (fun h => { h with merge := .suspended }) s)
    else modArb (fun a => { a with merge := true }) s
  else s

/-- The Merge Engine returns from SUSPENDED when no Tap Controller request waits (R117). -/
def mergeResume (s : State) : State :=
  if s.hot.merge = .suspended ∧ tapWaits s.arb = false then
    modArb (fun a => { a with merge := true }) (modHot (fun h => { h with merge := .merging }) s)
  else s

/-- The arbiter at the end of an event: at a free port the local additions that waited for the end of the
grant are taken, then the Merge Engine looks, and the next grant begins (R174, R117). The manual does not
order the additions and the look; the additions come first (assumption log 17). -/
def arbitrate (s : State) : State :=
  if s.arb.inUse.isSome then mergeResume s
  else mergeResume (modArb beginGrant (mergeLook (mergeResume (modHot takeAdditions s))))

/-- The port made ready for the grant that a command serves: at a free port the next grant begins first
(R174). -/
def grantReady (s : State) : State := if s.arb.inUse.isSome then s else arbitrate s

/-- The grant in use ends (R174). -/
def endGrant (s : State) : State := modArb (fun a => { a with inUse := none }) s

/-! ### Lookups (R111) -/

/-- The operation of a present delta for a UID (R111, step 1). -/
def deltaFor (h : Hotlist) (u : Uid) : Option DeltaOp :=
  if h.deltaCond = .present then h.deltaOps.find? (fun o => decide (o.uid = u)) else none

/-- The action of the main part: the delta, else the active bank (R111, steps 1 and 2). -/
def mainAction (h : Hotlist) (u : Uid) : Option HotAction :=
  match deltaFor h u with
  | some (.add _ action) => some action
  | some (.remove _) => none
  | none => ((activeEntries h).find? (fun e => decide (e.uid = u))).map HotEntry.action

/-- The answer of a lookup (R111). -/
def lookupAnswer (h : Hotlist) (u : Uid) : HotAnswer :=
  { action :=
      match mainAction h u with
      | some action => some action
      | none => if h.localList.contains u then some .refuse else none
    version := h.version }

/-! ### Shadow, merge and swap -/

/-- The shadow's entries (R108). -/
def shadowEntries (h : Hotlist) : List HotEntry :=
  match h.active with
  | .zero => h.bank1
  | .one => h.bank0

/-- The shadow's entries replaced. -/
def setShadow (es : List HotEntry) (h : Hotlist) : Hotlist :=
  match h.active with
  | .zero => { h with bank1 := es }
  | .one => { h with bank0 := es }

/-- The bank that is not active (R108). -/
def shadowBank : HotBank → HotBank
  | .zero => .one
  | .one => .zero

/-- Pruning of the local list by the new active bank (R114). -/
def pruneLocal (h : Hotlist) : Hotlist :=
  let kept := h.localList.filter (fun u => !listed (activeEntries h) u)
  { h with localList := kept, localFull := h.localFull && decide (256 ≤ kept.length) }

/-- The shadow becomes the active bank under a version, the delta goes ABSENT and the local list is
pruned: the common part of merge completion and full swap (R118, R121). That the FREE shadow keeps the old
active bank's entries, and the delta list its two versions, is the model's choice (R108, R109, assumption logs
59 and 54). -/
def swapBanks (version : Nat) (h : Hotlist) : Hotlist :=
  pruneLocal
    { h with
      active := shadowBank h.active
      version := version
      shadow := .free
      deltaCond := .absent
      deltaOps := []
      image := [] }

/-- Merge completion (R118). -/
def completeMerge (h : Hotlist) : Hotlist :=
  { swapBanks h.deltaNew h with merge := .idle, mergeEntries := [], mergeOps := [] }

/-- An operation in ascending UID order (R116). -/
def insertByUid (o : DeltaOp) : List DeltaOp → List DeltaOp
  | [] => [o]
  | p :: rest => if o.uid < p.uid then o :: p :: rest else p :: insertByUid o rest

/-- The operations of a delta in ascending UID order (R116). -/
def sortOps (ops : List DeltaOp) : List DeltaOp := ops.foldl (fun l o => insertByUid o l) []

/-- The merge start: the shadow MERGING_INTO, emptied, and both inputs whole (R116). -/
def startMerge (h : Hotlist) : Hotlist :=
  { setShadow [] h with
    shadow := .mergingInto
    merge := .merging
    mergeEntries := activeEntries h
    mergeOps := sortOps h.deltaOps }

/-- What an operation writes to the shadow (R116). -/
def opEntries : DeltaOp → List HotEntry
  | .add u action => [⟨u, action⟩]
  | .remove _ => []

/-- One step of the pass: the smallest UID not yet taken, and at most one entry written (R116). -/
def mergeTake (h : Hotlist) : Hotlist :=
  match h.mergeEntries, h.mergeOps with
  | [], [] => h
  | e :: es, [] => { setShadow (shadowEntries h ++ [e]) h with mergeEntries := es }
  | [], o :: os => { setShadow (shadowEntries h ++ opEntries o) h with mergeOps := os }
  | e :: es, o :: os =>
    if e.uid < o.uid then { setShadow (shadowEntries h ++ [e]) h with mergeEntries := es }
    else if o.uid < e.uid then { setShadow (shadowEntries h ++ opEntries o) h with mergeOps := os }
    else
      { setShadow (shadowEntries h ++ opEntries o) h with mergeEntries := es, mergeOps := os }

/-- A merge step, with the completion when both inputs are exhausted (R116, R118). The manual gives a
merge of two empty inputs no step to complete after; it completes in one grant that writes nothing
(assumption log 45). -/
def mergeAdvance (h : Hotlist) : Hotlist :=
  let taken := mergeTake h
  if taken.mergeEntries.isEmpty && taken.mergeOps.isEmpty then completeMerge taken else taken

/-- A merge abandoned by a warm restart: the shadow discarded, the delta kept (R119). That the FREE shadow
keeps the entries written so far is the model's choice (R108, assumption log 59). -/
def abandonMerge (h : Hotlist) : Hotlist :=
  if h.merge = .idle then h
  else { h with shadow := .free, merge := .idle, mergeEntries := [], mergeOps := [] }

end Sys2Proof.Machine
end

