-- ==== Sys2Proof/Machine/TapOps.lean ====
section
/-! DEFINITION. The Tap Controllers (chapter 2), from the engaged card to the end of the transaction:
card loss (R47), commands asked (R18), writing and confirming (R40, R41), commit (R43 to R45), and the
decision order from DECIDING entry to check 11 (R28 to R35). -/

namespace Sys2Proof.Machine

/-! ### Card loss and commands (R18, R47) -/

/-- The transaction has had a refusal, so that a FINISHING of it is that of a BLOCK action (R37). -/
def blocking (s : State) (sd : Side) : Bool := (s.taps.get sd).record.refusal.isSome

/-- FINISHING ends: after an exit commit the open record is closed, with HISTORY_MISSED when the write
was lost or failed; HALT follows (R37, R45). -/
def finishEnd (sd : Side) (missed : Bool) (s : State) : State :=
  askHalt sd (if blocking s sd then s else closeRecord sd missed s)

/-- A card-lost event or a write fault reaches the Tap Controller (R37, R45, R46, R47). -/
def tapLost (sd : Side) (s : State) : State :=
  match (s.taps.get sd).state with
  | .selecting | .identifying | .authenticating | .reading => refuse sd .cardLost s
  | .writing | .confirming => tear sd s
  | .finishing => finishEnd sd true s
  | _ => s

/-- A command asked of the channel: with the lost mark set it is not sent, and is returned at once as
the card-lost event (R18). -/
def ask (sd : Side) (cmd : AirCommand) (s : State) : State :=
  if (s.chans.get sd).lost then tapLost sd s else sendCommand sd cmd 1 s

/-- A computation asked of the channel's code engine (R184). -/
def askEngine (sd : Side) (job : ChanJob) (s : State) : State := setEngine sd (some job) s

/-! ### Writing and confirming (R40, R41, R84) -/

/-- The target slot of a transaction. -/
def targetOf (s : State) (sd : Side) : SlotId := (s.taps.get sd).record.target.getD .a

/-- The first and the second block number of the target slot (R4). -/
def firstBlock (s : State) (sd : Side) : Nat := slotFirstBlock (targetOf s sd)
def secondBlock (s : State) (sd : Side) : Nat := slotFirstBlock (targetOf s sd) + 1

/-- The composed bytes of a journey block of the target slot (R69). -/
def composedBlock (s : State) (sd : Side) (block : Nat) : List Byte :=
  let image := (s.taps.get sd).record.journeyImage.getD []
  if block = firstBlock s sd then image.take 16 else image.drop 16

/-- A journey block as read in READING. -/
def blockAsRead (s : State) (sd : Side) (block : Nat) : List Byte :=
  (s.taps.get sd).record.blocks.getD (block - 1) []

/-- The composed block equals the block as read: the unchanged-block skip (R84). -/
def skipsBlock (s : State) (sd : Side) (block : Nat) : Bool :=
  decide (composedBlock s sd block = blockAsRead s sd block)

/-- A journey block asked to be written with its composed bytes. -/
def askWrite (sd : Side) (block : Nat) (s : State) : State :=
  ask sd (.write block (composedBlock s sd block)) s

/-- CONFIRMING entered: the first block is read back (R41). -/
def enterConfirming (sd : Side) (s : State) : State :=
  ask sd (.read (firstBlock s sd)) (setTapState sd .confirming s)

/-- The second block of the target slot taken up in WRITING (R40). -/
def writeSecond (sd : Side) (s : State) : State :=
  if skipsBlock s sd (secondBlock s sd) then enterConfirming sd s
  else askWrite sd (secondBlock s sd) s

/-- WRITING begun with the first block of the target slot (R40). -/
def writeFirst (sd : Side) (s : State) : State :=
  if skipsBlock s sd (firstBlock s sd) then writeSecond sd s else askWrite sd (firstBlock s sd) s

/-- The displaced sighting of the transaction's own INTENT dropped at the write point (R95). -/
def dropDisplaced (sd : Side) (s : State) : State :=
  modEntry (tapUid s sd)
    (fun e => if ownPinned s sd e then { e with displaced := none } else e) s

/-- The write point: the claim hold has run, and the transaction enters WRITING (R38, R40). -/
def writePoint (sd : Side) (s : State) : State :=
  writeFirst sd
    (modTap sd (fun t => { t with state := .writing, hold := none }) (dropDisplaced sd s))

/-! ### Commit (R43 to R45) -/

/-- The commit of a transaction writes a history entry afterwards: an exit, or a recovered exit (R44).-/
def commitsExit (sd : Side) (d : Decision) : Bool :=
  decide (sd = .b) && (decide (d.accept = .exit) || decide (d.accept = .recovered))

/-- The journal kind of an accept (R43). -/
def acceptJournal : AcceptKind → JournalKind
  | .entry => .entry
  | .exit => .exit
  | .reuse => .reuse
  | .recovered => .recovered

/-- The record of a commit (R43, R190). -/
def commitRecord (s : State) (sd : Side) (d : Decision) : JournalRecord :=
  let r := (s.taps.get sd).record
  { stampRecord s (acceptJournal d.accept) (tapUid s sd) (tapClass s sd) sd with
    tcBefore := some d.baseTc
    tcAfter := some d.resultTc
    fare := if d.accept = .reuse then none else some d.fare
    balanceAfter := some d.balanceAfter
    fareVersion := if d.accept = .recovered then none else r.fareVersion
    hotVersion := r.hotlist.map HotAnswer.version
    flags := ⟨d.flags, false, false, false⟩
    isOpen := commitsExit sd d }

/-- The counters of a commit (R195). -/
def countCommit (d : Decision) (c : Counters) : Counters :=
  let paid := { c with fareTotal := (c.fareTotal + d.fare) % 18446744073709551616 }
  match d.accept with
  | .entry => { paid with entries := advance32 c.entries }
  | .exit => { paid with exits := advance32 c.exits }
  | .recovered => { paid with recoveries := advance32 c.recoveries }
  | .reuse => { c with reuses := advance32 c.reuses }

/-- The grant of a commit (R43, R127). -/
def commitGrant (s : State) (sd : Side) (d : Decision) : Grant :=
  { side := sd, uid := tapUid s sd, cls := tapClass s sd, tc := d.resultTc, entered := false }

/-- The context that a commit removes: the held one of a recovery (R82). -/
def dropHeld (sd : Side) (s : State) : State :=
  match heldContext s sd with
  | some c => removeContext c.uid s
  | none => s

/-- The hand-offs of a commit (R43), in the order of assumption log 16. -/
def commitHandOffs (sd : Side) (d : Decision) (s : State) : State :=
  let spent := modRecord sd (fun r => { r with holdsJournal := false, holdsGrant := false }) s
  let recorded := modCounters (countCommit d) (convertRecord (commitRecord s sd d) spent)
  let seen :=
    ownSighting sd (makeSighting s sd (tapUid s sd) .commit d.baseTc d.resultTc) (dropHeld sd recorded)
  takeUpMark sd (handOverGrant (commitGrant s sd d) seen)

/-- What follows a commit: FINISHING with the history WRITE for an exit, HALT otherwise (R44, R45). -/
def afterCommit (sd : Side) (d : Decision) (s : State) : State :=
  if commitsExit sd d then
    ask sd (.write (5 + d.resultTc % 3) ((s.taps.get sd).record.historyImage.getD []))
      (setTapState sd .finishing s)
  else askHalt sd s

/-- Commit (R43, R44). -/
def commit (sd : Side) (s : State) : State :=
  match (s.taps.get sd).record.decision with
  | none => s
  | some d => afterCommit sd d (commitHandOffs sd d s)

/-! ### Read-back (R41) -/

/-- A journey block joins the confirmed set. -/
def confirmBlock (sd : Side) (first : Bool) (s : State) : State :=
  modRecord sd
    (fun r =>
      { r with
        confirmed :=
          if first then { r.confirmed with first := true } else { r.confirmed with second := true } })
    s

/-- A block rewritten once, and so marked in the rewritten set (R41). -/
def rewriteBlock (sd : Side) (first : Bool) (s : State) : State :=
  askWrite sd (if first then firstBlock s sd else secondBlock s sd)
    (modRecord sd
      (fun r =>
        { r with
          rewritten :=
            if first then { r.rewritten with first := true }
            else { r.rewritten with second := true } }) s)

/-- Both blocks have been read back: each mismatch is rewritten once, and then commit (R41). -/
def afterReadBack (sd : Side) (s : State) : State :=
  let c := (s.taps.get sd).record.confirmed
  if !c.first then rewriteBlock sd true s
  else if !c.second then rewriteBlock sd false s
  else commit sd s

/-- A read-back of a journey block in CONFIRMING (R41). A second mismatch is a write fault that the Tap
Controller finds; the channel, which returned the answer, does not set its lost mark (assumption log
42). -/
def readBack (sd : Side) (block : Nat) (bytes : List Byte) (s : State) : State :=
  let first := decide (block = firstBlock s sd)
  let again :=
    if first then (s.taps.get sd).record.rewritten.first else (s.taps.get sd).record.rewritten.second
  let good := decide (bytes = composedBlock s sd block)
  let seen := if good then confirmBlock sd first s else s
  if !good && again then tear sd s
  else if first && !again then ask sd (.read (secondBlock s sd)) seen
  else afterReadBack sd seen

/-- A WRITE acknowledged: the next step of WRITING, CONFIRMING or FINISHING (R37, R40, R41, R45). -/
def tapWritten (sd : Side) (block : Nat) (s : State) : State :=
  match (s.taps.get sd).state with
  | .writing => if block = firstBlock s sd then writeSecond sd s else enterConfirming sd s
  | .confirming => ask sd (.read block) s
  | .finishing => finishEnd sd false s
  | _ => s

/-! ### Check 11 (R35) -/

/-- The accept asks for an insertion entry: every one but REUSE and RECOVERED of class (a) (R35). -/
def needsInsertion (r : TapRecord) : Bool :=
  match r.decision with
  | none => false
  | some d => decide (d.accept ≠ .reuse) && decide (r.recovery ≠ some .committed)

/-- The end of check 11: CLAIMING with an insertion entry, commit at once without one (R35, R38, R43).-/
def reservedAll (sd : Side) (s : State) : State :=
  if needsInsertion (s.taps.get sd).record then enterClaiming sd s else commit sd s

/-- The insertion entry of check 11 (R35, R97). -/
def takeInsertion (sd : Side) (s : State) : State :=
  if needsInsertion (s.taps.get sd).record then
    match reserveIntent s.ring with
    | none => refuse sd .lineBusy s
    | some ring =>
      reservedAll sd (modRecord sd (fun r => { r with holdsInsertion := true }) { s with ring := ring })
  else reservedAll sd s

/-- The journal record of check 11 (R35, R191). -/
def takeJournal (sd : Side) (s : State) : State :=
  if 32 < journalAvailable s.journal then
    takeInsertion sd
      (modRecord sd (fun r => { r with holdsJournal := true })
        (modJournal (fun j => { j with reserved := j.reserved + 1 }) s))
  else refuse sd .journalFull s

/-- Check 11: the reservations, in their order (R35, R128). -/
def check11 (sd : Side) (s : State) : State :=
  if s.gate.reserved + s.gate.queue.length < 2 then
    takeJournal sd
      (modRecord sd (fun r => { r with holdsGrant := true })
        (modGate (fun g => { g with reserved := g.reserved + 1 }) s))
  else refuse sd .gateBusy s

/-! ### The decision order (R29 to R34) -/

/-- The fare table of the bank that a transaction references (R167). -/
def tapTable (s : State) (sd : Side) : FareTable :=
  match (s.taps.get sd).record.bank with
  | some id => parseFareTable (bankOf s.store id).image
  | none => parseFareTable []

/-- Block 0 as read. -/
def tapBlock0 (s : State) (sd : Side) : List Byte := (s.taps.get sd).record.block0.getD []

/-- The card code key of a transaction (R180). -/
def tapCodeKey (s : State) (sd : Side) : Key := (s.taps.get sd).record.codeKey.getD 0

/-- The value now of a transaction (R51). -/
def tapNow (s : State) (sd : Side) : Nat := fareNow ((s.taps.get sd).record.decisionTime.getD 0)

/-- The valid record of a transaction. -/
def tapCard (s : State) (sd : Side) : Journey :=
  let r := (s.taps.get sd).record
  parseJourney (slotBytes r (r.validSlot.getD .a))

/-- Check 1 (R29). -/
def check1 (sd : Side) (s : State) : State :=
  if blockFormat (tapBlock0 s sd) = 1 ∧ blockIssuer (tapBlock0 s sd) ∈ (tapTable s sd).issuers then
    askEngine sd .identity s
  else refuse sd .noCardApp s

/-- Check 3 (R29). -/
def check3 (sd : Side) (s : State) : State :=
  let b := tapBlock0 s sd
  if blockStatus b = statusBlocked then refuse sd .cardBlocked s
  else if blockStatus b ≠ statusActive ∨ 7 < blockClass b then refuse sd .badRecord s
  else askStore sd .lookup s

/-- Check 2, with check 3 behind it (R29, R182). -/
def check2 (sd : Side) (s : State) : State :=
  if blockCode (tapBlock0 s sd) = identityCode (tapCodeKey s sd) (tapUid s sd) (tapBlock0 s sd) then
    check3 sd s
  else refuse sd .codeFail s

/-- The BLOCK action: recorded at once, then block 0 is composed for its write (R37). The state is
FINISHING from here, while the engine computes the image that R25 lists under DECIDING (assumption log
48). -/
def blockAction (sd : Side) (s : State) : State :=
  askEngine sd .blockIdentity (setTapState sd .finishing (refuseSequence sd .blocked .hotlisted s))

/-- Check 4, on the answer of the lookup (R30). -/
def check4 (sd : Side) (s : State) : State :=
  let answer := lookupAnswer s.hot (tapUid s sd)
  let taken := modRecord sd (fun r => { r with hotlist := some answer }) s
  match answer.action with
  | none => askStore sd .check5 taken
  | some .refuse => refuse sd .hotlisted taken
  | some .block => blockAction sd taken

/-- The slot is code-verified (R6). -/
def slotCoded (c : Option SlotClass) : Bool := decide (c = some .codedBad) || decide (c = some .valid)

/-- The TC of a slot as read. -/
def slotTc (r : TapRecord) (slot : SlotId) : Nat := (parseJourney (slotBytes r slot)).tc

/-- The leading slot of the slot choice (R6). -/
def leadingSlot (r : TapRecord) : Option SlotId :=
  match slotCoded r.classA, slotCoded r.classB with
  | false, false => none
  | true, false => some .a
  | false, true => some .b
  | true, true => if slotTc r .a < slotTc r .b then some .b else some .a

/-- The class of a slot in the record. -/
def recordClass (r : TapRecord) : SlotId → Option SlotClass
  | .a => r.classA
  | .b => r.classB

/-- The decision of a recovery (R79, R80). -/
def recoveredDecision (c : Context) : Decision :=
  { accept := .recovered, fare := c.fare, balanceAfter := c.balanceAfter, flags := c.flags
    baseTc := c.baseTc, resultTc := c.baseTc + 1 }

/-- The recovery path of classes (a) and (b): the context held, its decision and images taken (R32, R79,
R80). -/
def recoverTap (sd : Side) (c : Context) (cls : RecoveryClass) (s : State) : State :=
  check11 sd
    (modRecord sd
      (fun r =>
        { r with
          recovery := some cls
          decision := some (recoveredDecision c)
          target := some c.target
          journeyImage := some c.journeyImage
          historyImage := c.historyImage })
      (modContext c.uid (fun c => { c with holder := some sd }) s))

/-- Check 8, and check 9 asked (R33). -/
def check8 (sd : Side) (s : State) : State :=
  if (s.taps.get sd).record.cardTc = some maxTc then refuse sd .cardExhausted s
  else askStore sd .check9 s

/-- Check 7 (R32, R77, R78, R81). -/
def check7 (sd : Side) (s : State) : State :=
  match takeUpContext s sd with
  | none => check8 sd s
  | some c =>
    match classifyContext (s.taps.get sd).record c with
    | .other =>
      check8 sd (modRecord sd (fun r => { r with recovery := some .other }) (expireContext c s))
    | cls => recoverTap sd c cls s

/-- Check 6 (R6, R31). -/
def check6 (sd : Side) (s : State) : State :=
  let r := (s.taps.get sd).record
  match leadingSlot r with
  | none => refuse sd .codeFail s
  | some l =>
    if recordClass r l = some .valid then
      check7 sd
        (modRecord sd
          (fun r =>
            { r with validSlot := some l, target := some (otherSlot l), cardTc := some (slotTc r l) }) s)
    else refuse sd .badRecord s

/-- Check 5 (R31). -/
def check5 (sd : Side) (s : State) : State :=
  if blockExpiry (tapBlock0 s sd) < serviceDay (tapNow s sd) (tapTable s sd).dayStart then
    refuse sd .cardExpired s
  else check6 sd s

/-- The decision of a REUSE (R33, R43). -/
def reuseDecision (card : Journey) : Decision :=
  { accept := .reuse, fare := 0, balanceAfter := card.balance, flags := noFareFlags
    baseTc := card.tc, resultTc := card.tc }

/-- Check 9, with the reuse test (R33, R104). The test and the commit are two events: a reuse found here is
the decision, and check 11 and the commit follow at one more grant (assumption log 49). -/
def check9 (sd : Side) (s : State) : State :=
  let card := tapCard s sd
  if reuseFound s sd (tapUid s sd) card.tc (tapTable s sd).reuseWindow then
    askStore sd .check11 (modRecord sd (fun r => { r with decision := some (reuseDecision card) }) s)
  else askStore sd .check10 s

/-- The inputs of the Fare Unit at check 10 (R34, R50). The request is made, and the line setup record
taken, in the event that serves the read of the bank (assumption log 43). -/
def fareInputOf (s : State) (sd : Side) : FareInput :=
  { side := sd
    card := tapCard s sd
    cls := blockClass (tapBlock0 s sd)
    station := stationOf s
    zone := match s.store.setup with
      | some l => l.zone
      | none => 0
    now := tapNow s sd
    table := tapTable s sd }

/-- The decision of an accept of the Fare Unit (R34). -/
def fareDecision (i : FareInput) (a : FareAccept) : Decision :=
  { accept := match i.side with
      | .a => .entry
      | .b => .exit
    fare := a.charge, balanceAfter := a.balanceAfter, flags := a.flags
    baseTc := i.card.tc, resultTc := i.card.tc + 1 }

/-- The fields of the history image, which only an exit has (R68). -/
def exitHistory (sd : Side) (i : FareInput) (a : FareAccept) : Option HistoryFields :=
  match sd with
  | .a => none
  | .b => some (historyFields i a)

/-- Check 10: the Fare Unit's answer, and the composition of its accept begun: the 24 bytes are built, and
their record code is asked (R34, R69, steps 1 and 2). -/
def check10 (sd : Side) (s : State) : State :=
  let i := fareInputOf s sd
  match fareUnit i with
  | .refusal code => refuse sd code s
  | .accept a =>
    askEngine sd (.compose (journeyBytes (composeJourney i a)) (exitHistory sd i a))
      (modRecord sd (fun r => { r with decision := some (fareDecision i a) }) s)

/-- The read of the referenced bank that a grant serves, and the checks on it (R174). -/
def bankCheck (sd : Side) (a : TapAsk) (s : State) : State :=
  match a with
  | .check1 => check1 sd s
  | .check5 => check5 sd s
  | .check9 => check9 sd s
  | .check10 => check10 sd s
  | .check11 => check11 sd s
  | .lookup => s

/-! ### From card found to DECIDING (R26 to R28) -/

/-- DECIDING entry: the decision time and the fare-table reference are taken (R28, R167). -/
def enterDeciding (sd : Side) (s : State) : State :=
  let bank := bankIn s.store .active
  let noted :=
    modRecord sd
      (fun r =>
        { r with
          decisionTime := some s.clock.lineTime
          bank := bank
          fareVersion := bank.map (fun id => (bankOf s.store id).version) })
      (setTapState sd .deciding s)
  let raised :=
    match bank with
    | some id => modBank id raiseRefs noted
    | none => noted
  askStore sd .check1 raised

/-- AUTHENTICATING entry: both master keys are looked up, or NO_KEY (R27, R179, R180). A transaction refused
here keeps the state name AUTHENTICATING until its exchange has ended (assumption log 47). -/
def enterAuthenticating (sd : Side) (s : State) : State :=
  let version := blockKeyVersion (tapBlock0 s sd)
  let entered := setTapState sd .authenticating s
  match cardMaster s .cardAuth version, cardMaster s .cardCode version with
  | some auth, some code => askEngine sd (.deriveAuth auth code) entered
  | _, _ => refuse sd .noKey entered

/-- A transaction started by the card found event (R26). -/
def startTap (sd : Side) (u : Uid) (s : State) : State :=
  ask sd (.select u)
    (setTap sd
      { state := .selecting, ending := false, hold := none
        record := { TapRecord.empty with uid := some u } } s)

/-- A block read in READING: the next block is asked, or the slots are classed (R28). -/
def readingBlock (sd : Side) (block : Nat) (bytes : List Byte) (s : State) : State :=
  let stored := modRecord sd (fun r => { r with blocks := r.blocks ++ [bytes] }) s
  if block < 4 then ask sd (.read (block + 1)) stored else askEngine sd (.slotCode .a) stored

/-- A READ completed (R26, R28, R41). -/
def tapRead (sd : Side) (block : Nat) (bytes : List Byte) (s : State) : State :=
  match (s.taps.get sd).state with
  | .identifying =>
    enterAuthenticating sd (modRecord sd (fun r => { r with block0 := some bytes }) s)
  | .reading => readingBlock sd block bytes s
  | .confirming => readBack sd block bytes s
  | _ => s

/-- A first pass completed: the part's response is computed over the card's challenge (R14, R183). -/
def tapChallenged (sd : Side) (challenge : List Byte) (s : State) : State :=
  askEngine sd .partResponse (modRecord sd (fun r => { r with cardChallenge := challenge }) s)

/-- A second pass completed: the card's response is to be verified (R14, R183). -/
def tapResponded (sd : Side) (response : List Byte) (s : State) : State :=
  askEngine sd .cardResponse (modRecord sd (fun r => { r with cardResponse := response }) s)

/-- The data that a GOOD answer carries, handed on; an answer of another form carries none. -/
def withData (answer : AirAnswer) (f : List Byte → State → State) (s : State) : State :=
  match answer with
  | .data bytes => f bytes s
  | .uid _ => s
  | .selected => s
  | .ack => s
  | .nak => s

/-- A SELECT, READ or AUTH completed with its answer (R18, R26 to R28, R41). -/
def tapAnswer (sd : Side) (cmd : AirCommand) (answer : AirAnswer) (s : State) : State :=
  match cmd with
  | .select _ => ask sd (.read 0) (setTapState sd .identifying s)
  | .read block => withData answer (tapRead sd block) s
  | .authFirst => withData answer (tapChallenged sd) s
  | .authSecond _ _ => withData answer (tapResponded sd) s
  | .wake => s
  | .write _ _ => s
  | .halt => s

/-! ### Results of the channel's code engine (R182, R183) -/

/-- The second pass sent: the part's challenge is drawn, and its response goes out with it (R14, R183).-/
def sendResponse (sd : Side) (s : State) : State :=
  let r := (s.taps.get sd).record
  let challenge := toBE 8 (Config.challengeDraw s.draws).toNat
  let response := codeOf 8 (r.authKey.getD 0) (r.cardChallenge ++ challenge)
  ask sd (.authSecond response challenge)
    (modRecord sd (fun r => { r with partChallenge := challenge }) { s with draws := s.draws + 1 })

/-- The card's response verified, or AUTH_FAIL (R14, R183). -/
def verifyResponse (sd : Side) (s : State) : State :=
  let r := (s.taps.get sd).record
  if r.cardResponse = codeOf 8 (r.authKey.getD 0) (r.partChallenge ++ r.cardChallenge) then
    ask sd (.read 1) (setTapState sd .reading s)
  else refuse sd .authFail s

/-- A slot classed: slot A first and then slot B, one computation each, an order that R28 and R182 leave open
(R5, R28; assumption log 55). -/
def classSlot (sd : Side) (slot : SlotId) (s : State) : State :=
  let r := (s.taps.get sd).record
  let cls := some (classOfSlot (tapCodeKey s sd) (tapUid s sd) slot (slotBytes r slot))
  match slot with
  | .a => askEngine sd (.slotCode .b) (modRecord sd (fun r => { r with classA := cls }) s)
  | .b => enterDeciding sd (modRecord sd (fun r => { r with classB := cls }) s)

/-- A composed journey record completed by its record code, and then the history image of an exit built
(R69, steps 2 to 4, R182; assumption log 44). -/
def composeDone (sd : Side) (record : List Byte) (history : Option HistoryFields) (s : State) : State :=
  let code := recordCode (tapCodeKey s sd) (tapUid s sd) (slotNumber (targetOf s sd)) record
  check11 sd
    (modRecord sd
      (fun r =>
        { r with journeyImage := some (record ++ code), historyImage := history.map historyBytes }) s)

/-- The block 0 image of a BLOCK action completed, and its WRITE asked, in FINISHING (R3, R37, R182;
assumption log 48). -/
def blockImageDone (sd : Side) (s : State) : State :=
  let fields := blockedFields (tapBlock0 s sd)
  let image := fields ++ identityCode (tapCodeKey s sd) (tapUid s sd) fields
  ask sd (.write 0 image) (modRecord sd (fun r => { r with block0Image := some image }) s)

/-- A channel engine hands its result to its Tap Controller (R184). -/
def chanEngineDone (sd : Side) (job : ChanJob) (s : State) : State :=
  let idle := setEngine sd none s
  match job with
  | .deriveAuth auth code =>
    askEngine sd (.deriveCode code)
      (modRecord sd (fun r => { r with authKey := some (cardKey auth (tapUid s sd)) }) idle)
  | .deriveCode code =>
    ask sd .authFirst
      (modRecord sd (fun r => { r with codeKey := some (cardKey code (tapUid s sd)) }) idle)
  | .partResponse => sendResponse sd idle
  | .cardResponse => verifyResponse sd idle
  | .slotCode slot => classSlot sd slot idle
  | .identity => check2 sd idle
  | .compose record history => composeDone sd record history idle
  | .blockIdentity => blockImageDone sd idle

/-! ### The end of the exchange (R46, R20) -/

/-- The exchange-ended event at the Tap Controller: the bank reference released, the record cleared,
IDLE (R46). -/
def endTap (sd : Side) (s : State) : State := setTap sd Tap.cold (releaseBank sd s)

end Sys2Proof.Machine
end

