-- ==== Sys2Proof/Machine/AirOps.lean ====
section
/-! DEFINITION. The Air Channels (chapter 1): answer windows and their outcomes (R10 to R12), polling and
waiting for removal (R17, R21), the carriage of a Tap Controller's commands (R18), and the channel's
part of enabling and of the end of an exchange (R16, R20). -/

namespace Sys2Proof.Machine

/-- The end of an answer window as the channel takes it (R10): the outcomes, with a GOOD answer that
carries NAK apart. -/
inductive WindowEnd where
  | good (answer : AirAnswer)
  | nak
  | badFrame
  | collision
  | nothing
deriving DecidableEq, Repr

/-- A GOOD answer has the form of the command outstanding (R9, R10). A NAK answers every command but
WAKE. -/
def answerFits (cmd : AirCommand) (answer : AirAnswer) : Bool :=
  match cmd, answer with
  | .wake, .uid _ => true
  | .select _, .selected => true
  | .read _, .data bytes => decide (bytes.length = 16)
  | .authFirst, .data bytes => decide (bytes.length = 8)
  | .authSecond _ _, .data bytes => decide (bytes.length = 8)
  | .write _ _, .ack => true
  | _, _ => false

/-- A report of the front-end as the end of the window of a command: an answer that is not of its form
is taken as BAD_FRAME, and so is a COLLISION report after another command than WAKE (R10). -/
def windowOutcome (cmd : AirCommand) : AirReport → WindowEnd
  | .badFrame => .badFrame
  | .collision => if cmd = .wake then .collision else .badFrame
  | .good .nak => if cmd = .wake then .badFrame else .nak
  | .good answer => if answerFits cmd answer then .good answer else .badFrame

/-- The outstanding command of a channel completed: none is outstanding. -/
def clearCommand (sd : Side) (s : State) : State :=
  modChan sd (fun c => { c with outstanding := none, answerTimer := none }) s

/-- The lost mark set after a card-lost event or a write fault (R18). -/
def markLost (sd : Side) (s : State) : State := modChan sd (fun c => { c with lost := true }) s

/-! ### POLLING and AWAIT_REMOVAL (R17, R21) -/

/-- The card found event: ENGAGED, the poll timer stopped, the Tap Controller started (R17, R19). -/
def cardFound (sd : Side) (u : Uid) (s : State) : State :=
  startTap sd u
    (modChan sd (fun c => { c with state := .engaged, pollTimer := none, lost := false })
      (clearCommand sd s))

/-- TWO_CARDS: STOP with TAP_AGAIN and AWAIT_REMOVAL, without a record (R17, item 3). For this entry the
manual names no start of the two timers; the field-empty timer starts at 0, and the poll timer, which the
WAKE that found the cards restarted, runs on (assumption log 40). -/
def twoCards (sd : Side) (s : State) : State :=
  startStop sd .tapAgain
    (modChan sd (fun c => { c with state := .awaitRemoval, fieldEmpty := some 0 }) (clearCommand sd s))

/-- A GOOD answer to a WAKE of POLLING: the card found, when it is a UID (R17, item 4). -/
def wakeAnswered (sd : Side) (answer : AirAnswer) (s : State) : State :=
  match answer with
  | .uid u => cardFound sd u s
  | .selected => clearCommand sd s
  | .data _ => clearCommand sd s
  | .ack => clearCommand sd s
  | .nak => clearCommand sd s

/-- A WAKE window ends in POLLING (R17). That the WAKE sent once more after a BAD_FRAME leaves the poll timer
running is the model's choice (assumption log 58). -/
def pollingEnd (sd : Side) (attempt : Nat) (out : WindowEnd) (s : State) : State :=
  match out with
  | .good answer => wakeAnswered sd answer s
  | .collision => twoCards sd s
  | .badFrame => if attempt = 1 then sendCommand sd .wake 2 s else clearCommand sd s
  | .nak => clearCommand sd s
  | .nothing => clearCommand sd s

/-- A WAKE window ends in AWAIT_REMOVAL: any answer restarts the field-empty timer (R21). -/
def awaitEnd (sd : Side) (out : WindowEnd) (s : State) : State :=
  match out with
  | .nothing => clearCommand sd s
  | _ => modChan sd (fun c => { c with fieldEmpty := some 0 }) (clearCommand sd s)

/-! ### ENGAGED (R11, R12, R18) -/

/-- A second failure: the lost mark is set and the event given to the Tap Controller (R11, R12, R18). -/
def loseCard (sd : Side) (s : State) : State := tapLost sd (markLost sd (clearCommand sd s))

/-- A command's window ends in ENGAGED: completion, one resend, or the card-lost event or write fault
(R11, R12). -/
def engagedEnd (sd : Side) (o : Outstanding) (out : WindowEnd) (s : State) : State :=
  match out with
  | .good answer =>
    match o.cmd with
    | .write block _ => tapWritten sd block (clearCommand sd s)
    | cmd => tapAnswer sd cmd answer (clearCommand sd s)
  | _ => if o.attempt = 1 then sendCommand sd o.cmd 2 s else loseCard sd s

/-- An answer window ends (R10). -/
def endWindow (sd : Side) (o : Outstanding) (out : WindowEnd) (s : State) : State :=
  match (s.chans.get sd).state with
  | .off => clearCommand sd s
  | .polling => pollingEnd sd o.attempt out s
  | .awaitRemoval => awaitEnd sd out s
  | .engaged => engagedEnd sd o out s

/-- The command whose window is open at a channel: one is outstanding, and the answer timer runs. -/
def openWindow (s : State) (sd : Side) : Option Outstanding :=
  if (s.chans.get sd).answerTimer.isSome then (s.chans.get sd).outstanding else none

/-- An answer arrives: it ends the open window, or is discarded when none is open (R10). -/
def answerArrives (sd : Side) (report : AirReport) (s : State) : State :=
  match openWindow s sd with
  | none => s
  | some o => endWindow sd o (windowOutcome o.cmd report) s

/-- The answer timer expires: the open window ends NONE (R10). -/
def answerExpires (sd : Side) (s : State) : State :=
  match openWindow s sd with
  | none => s
  | some o => endWindow sd o .nothing s

/-- The channel sends WAKE: the poll timer restarts as it leaves (R17, R21). -/
def sendWake (sd : Side) (s : State) : State :=
  modChan sd (fun c => { c with pollTimer := some 10 }) (sendCommand sd .wake 1 s)

/-- The poll timer expires in POLLING or AWAIT_REMOVAL (R17, R21). That the new WAKE takes the place of a window
still open is the model's choice (assumption log 58). -/
def pollExpires (sd : Side) (s : State) : State :=
  if (s.chans.get sd).pollTimer.isSome then
    match (s.chans.get sd).state with
    | .polling => sendWake sd s
    | .awaitRemoval => sendWake sd s
    | _ => s
  else s

/-- The field-empty timer reaches 300 ms: POLLING, and an open window is closed (R21). -/
def fieldEmptied (sd : Side) (s : State) : State :=
  if (s.chans.get sd).state = .awaitRemoval ∧ (s.chans.get sd).fieldEmpty.isSome then
    modChan sd (fun c => { c with state := .polling, fieldEmpty := none }) (clearCommand sd s)
  else s

/-! ### Enabling and leaving (R16, R20) -/

/-- A channel switched off: nothing outstanding, no timer, no lost mark (R16). -/
def switchOff (sd : Side) (s : State) : State := setChan sd Channel.cold s

/-- A channel switched on from OFF: POLLING, with the first WAKE at once (R16). -/
def switchOn (sd : Side) (s : State) : State :=
  sendWake sd (modChan sd (fun c => { c with state := .polling }) s)

/-- The enabled condition of a side applied to its channel (R16). -/
def enableChannel (sd : Side) (s : State) : State :=
  match (s.chans.get sd).state with
  | .off => if sideEnabled s sd then switchOn sd s else s
  | .polling => if sideEnabled s sd then s else switchOff sd s
  | .awaitRemoval => if sideEnabled s sd then s else switchOff sd s
  | .engaged => s

/-- AWAIT_REMOVAL entered: the field-empty timer at 0 and the poll timer restarted (R20, R23). -/
def awaitChannel : Channel :=
  { state := .awaitRemoval, outstanding := none, answerTimer := none, pollTimer := some 10
    fieldEmpty := some 0, lost := false }

/-- The channel leaves ENGAGED at the exchange-ended event (R20). -/
def leaveEngaged (sd : Side) (s : State) : State :=
  setChan sd (if sideEnabled s sd then awaitChannel else Channel.cold) s

/-- HALT stands outstanding at an engaged channel (R13, R46). -/
def haltSent (s : State) (sd : Side) : Bool :=
  decide ((s.chans.get sd).state = .engaged) &&
    decide ((s.chans.get sd).outstanding.map Outstanding.cmd = some .halt)

/-- The exchange-ended event (R46, R20). -/
def exchangeEnds (sd : Side) (s : State) : State :=
  if haltSent s sd then leaveEngaged sd (endTap sd s) else s

/-- The claim hold expires in CLAIMING: the write point (R38). -/
def holdExpires (sd : Side) (s : State) : State :=
  if tapIn s sd .claiming && (s.taps.get sd).hold.isSome then writePoint sd s else s

end Sys2Proof.Machine
end

