-- ==== Sys2Proof/Machine/RingOps.lean ====
section
/-! DEFINITION. The Ring Interface and the Line Clock (chapter 8): which frames the part listens to, the
forward buffer (R153), the ring-out arbiter (R154), the last-16 sent list (R147, R148), beacons (R156,
R160) and the advance of line time (R161). -/

namespace Sys2Proof.Machine

/-! ### Receipt (R146, R147, R151) -/

/-- Ring-in is received frame by frame: the part is not in repeater mode (R158). -/
def listening (s : State) : Bool := !s.ring.repeater

/-- A frame is received and is good (R146). -/
def receives (s : State) (f : RingFrame) : Bool := listening s && frameGood f

/-- The frame is stripped: its source is this gate (R147). -/
def strips (s : State) (f : RingFrame) : Bool := decide (frameGate f = s.ring.gateNo)

/-- The frame's destination is all gates. -/
def toAll (f : RingFrame) : Bool := decide (frameDest f = 31)

/-- The frame's destination is this gate or all gates (R151). -/
def forThisGate (s : State) (f : RingFrame) : Bool :=
  toAll f || decide (frameDest f = s.ring.gateNo)

/-- The frame is of a kind (R203). -/
def hasKind (f : RingFrame) (kind : Nat) : Bool := decide (f.kind.toNat = kind)

/-- The frame is a beacon that is taken: from the concentrator to all gates (R151). -/
def takesBeacon (f : RingFrame) : Bool :=
  hasKind f kindBeacon && decide (frameGate f = 0) && toAll f

/-- The frame is a sighting that is taken (R151). -/
def takesSighting (s : State) (f : RingFrame) : Bool := hasKind f kindSighting && forThisGate s f

/-- The frame is a CLONE notice that is taken (R151). -/
def takesNotice (s : State) (f : RingFrame) : Bool := hasKind f kindNotice && forThisGate s f

/-- The frame is a management request that is taken: from the concentrator, to this gate or all (R151).-/
def takesRequest (s : State) (f : RingFrame) : Bool :=
  hasKind f kindRequest && decide (frameGate f = 0) && forThisGate s f

/-- The frame is taken by no block (R151). -/
def takenByNone (s : State) (f : RingFrame) : Bool :=
  !(takesBeacon f || takesSighting s f || takesNotice s f || takesRequest s f)

/-! ### Ring-out (R153, R154) -/

/-- A frame joins the forward buffer, or is dropped when the buffer is full (R153). -/
def forwardFrame (f : RingFrame) (s : State) : State :=
  modRing (fun r => if r.forward.length < 4 then { r with forward := r.forward ++ [f] } else r) s

/-- A taken frame is forwarded too when it is for all gates (R151). -/
def forwardIfAll (f : RingFrame) (s : State) : State := if toAll f then forwardFrame f s else s

/-- The record that the Journal Queue offers: the oldest one, when JOINED and when it is closed (R194).-/
def offeredRecord (s : State) : Option JournalRecord :=
  if s.ring.joined then
    match s.journal.records with
    | r :: _ => if r.isOpen then none else some r
    | [] => none
  else none

/-- A frame taken from sources 2 to 4 of the ring-out arbiter (R154). -/
def takeOwn (s : State) : State :=
  match s.ring.insertion with
  | m :: rest =>
    modRing (fun r => { r with insertion := rest, sending := some ⟨lineFrame m, .insertion⟩ }) s
  | [] =>
    match s.ring.filled with
    | f :: rest => modRing (fun r => { r with filled := rest, sending := some ⟨f, .answer⟩ }) s
    | [] =>
      match offeredRecord s with
      | some rec =>
        modRing (fun r => { r with sending := some ⟨journalFrame r.gateNo rec, .journal⟩ }) s
      | none => s

/-- The ring-out arbiter at an idle ring-out (R154, R148). -/
def ringOutTake (s : State) : State :=
  if s.ring.sending.isSome || s.ring.repeater then s
  else
    match s.ring.forward with
    | f :: rest => modRing (fun r => { r with forward := rest, sending := some ⟨f, .forward⟩ }) s
    | [] => if s.ring.sent.length < 16 then takeOwn s else s

/-- The entry of a frame that has finished leaving ring-out (R148). -/
def sentEntry (s : State) (f : RingFrame) : SentEntry :=
  { kind := f.kind, length := f.payload.length, crc := f.crc, sentAt := s.clock.localMs }

/-- An own frame entered in the last-16 sent list (R148). The arbiter has held a place for it. -/
def enterSent (e : SentEntry) (r : Ring) : Ring :=
  if r.sent.length < 16 then { r with sent := r.sent ++ [e] } else r

/-- A frame has finished leaving ring-out: an own frame makes its entry, and a journal frame removes its
record (R148, R154, R194). -/
def frameLeaves (x : Sending) (s : State) : State :=
  let idle := modRing (fun r => { r with sending := none }) s
  match x.origin with
  | .forward => idle
  | .journal =>
    modJournal (fun j => { j with records := j.records.drop 1 })
      (modRing (enterSent (sentEntry s x.frame)) idle)
  | _ => modRing (enterSent (sentEntry s x.frame)) idle

/-- An entry of the sent list matches a returning frame (R147). -/
def sentMatches (f : RingFrame) (e : SentEntry) : Bool :=
  decide (e.kind = f.kind) && decide (e.length = f.payload.length) && decide (e.crc = f.crc)

/-- A stripped frame: the oldest matching entry is removed, or DUPLICATE_NUMBER is set and the gate state
derived anew (R147, R149). -/
def stripFrame (f : RingFrame) (s : State) : State :=
  match s.ring.sent.find? (sentMatches f) with
  | some e => modRing (fun r => { r with sent := r.sent.erase e }) s
  | none => deriveGate (modRing (fun r => { r with duplicate := true }) s)

/-- The oldest entry of the sent list ages out (R148). -/
def ageOldest (s : State) : State := modRing (fun r => { r with sent := r.sent.drop 1 }) s

/-! ### Beacons and line time (R156, R160, R161) -/

/-- The largest line time. -/
def maxLineTime : Nat := 4294967295

/-- Line time set by a beacon (R160). -/
def setLineTime (t : Nat) (s : State) : State :=
  lineTimeMoved (modClock (fun c => { c with lineTime := t, isSet := true, hold := false, phase := 0 }) s)

/-- The Line Clock takes a beacon (R160). -/
def clockBeacon (t : Nat) (s : State) : State :=
  if s.clock.isSet && decide (t < s.clock.lineTime) then
    modClock (fun c => { c with hold := true, phase := 0 }) s
  else setLineTime t s

/-- A BEACON taken: the watch restarted, the ring JOINED, the clock set, stepped or held (R156, R160).-/
def takeBeacon (t : Nat) (s : State) : State :=
  clockBeacon t (modRing (fun r => { r with watch := some 2000, joined := true }) s)

/-- Line time advances by 1 s, staying at its largest value (R161). -/
def advanceLineTime (s : State) : State :=
  if s.clock.isSet && !s.clock.hold then
    lineTimeMoved
      (modClock (fun c => { c with lineTime := min (c.lineTime + 1) maxLineTime, phase := 0 }) s)
  else s

/-- The beacon watch expires: ISOLATED (R156). -/
def watchExpires (s : State) : State :=
  if s.ring.watch.isSome then modRing (fun r => { r with watch := none, joined := false }) s else s

end Sys2Proof.Machine
end

