-- ==== Sys2Proof/Machine/OutputOps.lean ====
section
/-! DEFINITION. The end of every event: the conditions that the part follows by level rather than by
event. Each side's channel follows its enabled condition (R16), the store arbiter grants a free port
(R174), the ring-out arbiter takes a frame for an idle ring-out (R154), and leaves and indicators show
the state left (R142, R143). -/

namespace Sys2Proof.Machine

/-- The leaf commands of an event, given behind those before it (R142). -/
def driveLeaves (s : State) : State :=
  modGate
    (fun g =>
      { g with
        leaf := leafOf (gateState s)
        leafGiven := g.leafGiven ++ leafChange g.leafCause (leafCause s)
        leafCause := leafCause s }) s

/-- The side indicators (R143). -/
def driveIndicators (s : State) : State :=
  modGate (fun g => { g with indicator := ⟨indicatorOf s .a, indicatorOf s .b⟩ }) s

/-- What follows every event within the event itself. -/
def settle (s : State) : State :=
  driveIndicators
    (driveLeaves (ringOutTake (arbitrate (enableChannel .b (enableChannel .a s)))))

/-- An event of a running part; the part without power or held by RST takes none (R158, R178). -/
def live (f : State → State) (s : State) : State :=
  if s.power = .running then settle (f s) else s

/-- The answer of a command that takes the part to a state. -/
def answered (s : State) : Host.Outcome State Fault Refusal := .next s

end Sys2Proof.Machine
end

