-- ==== Sys2Proof/Machine/RestartOps.lean ====
section
/-! DEFINITION. Starts and restarts: breaking off a load (R173), the warm restart of every block (R23,
R48, R86, R107, R119, R123, R145, R162, R163, R177, R197, R200), repeater mode (R158, R159), cold start
and the loss of power (R150, R178). -/

namespace Sys2Proof.Machine

/-! ### Loads broken off (R173) -/

/-- The destination of a load discarded (R173, R109, R120). What an EMPTY bank and a FREE shadow then hold,
and the two versions that an ABSENT delta list keeps, are the model's choices (assumption logs 57, 59 and
54). -/
def discardLoad (l : Loading) (s : State) : State :=
  match l.kind with
  | .fare => modBank l.bank (fun _ => Bank.cold) s
  | .full => modHot (fun h => { setShadow [] h with shadow := .free, image := [] }) s
  | .delta => modHot (fun h => { h with deltaCond := .absent, deltaOps := [], image := [] }) s

/-- A load broken off: the loader IDLE and the destination discarded (R173). -/
def breakOff (s : State) : State :=
  match s.loader with
  | none => s
  | some l => discardLoad l (modArb (fun a => { a with loader := none }) { s with loader := none })

/-! ### Warm restart -/

/-- A transaction abandoned by a warm restart: reservations released, the record of CARD_LOST offered, a
held context released (R48, R82), its TORN record, if any, after that of the refusal (assumption log
41). -/
def abandonTap (sd : Side) (s : State) : State :=
  releaseContext sd (recordRefusal sd .refused .cardLost (releaseReservations sd s))

/-- The transaction of a side ended by a warm restart, by its state (R48). -/
def restartTransaction (sd : Side) (s : State) : State :=
  if (s.taps.get sd).ending then s
  else
    match (s.taps.get sd).state with
    | .idle => s
    | .selecting | .identifying | .authenticating | .reading | .deciding => abandonTap sd s
    | .claiming =>
      abandonTap sd (withdrawIntent sd none (modTap sd (fun t => { t with hold := none }) s))
    | .writing | .confirming => tearHandOff sd s
    | .finishing => if blocking s sd then s else closeRecord sd true s

/-- A Tap Controller at a warm restart: the transaction ended, its bank reference and record dropped, its
engine idle (R48, R184). -/
def restartTap (sd : Side) (s : State) : State :=
  setEngine sd none (setTap sd Tap.cold (releaseBank sd (restartTransaction sd s)))

/-- The Gate Controller at a warm restart (R145). -/
def restartGate (s : State) : State :=
  let emptied := withdrawAll false s
  modGate (fun g => { g with passTimer := .stopped, stopTimer := ⟨none, none⟩, reserved := 0 }) emptied

/-- A fare bank at a warm restart (R177). -/
def restartBank (b : Bank) : Bank :=
  if b.state = .draining then Bank.cold else { b with refs := 0 }

/-- The Table Store and the store arbiter at a warm restart: the grant in use is discarded, local
additions that waited for its end are taken, and every request is withdrawn (R174, R177). -/
def restartStore (s : State) : State :=
  let broken := modHot (fun h => abandonMerge (takeAdditions h)) (breakOff s)
  { modStore (fun t => { t with bankX := restartBank t.bankX, bankY := restartBank t.bankY }) broken with
    arb := { tap := ⟨none, none⟩, loader := none, merge := false, inUse := none, mark := .a } }

/-- The Ring Interface at a warm restart: repeater mode for 2 ms (R158, R162). -/
def restartRing (s : State) : State :=
  modRing
    (fun r =>
      { r with
        forward := [], held := 0, filled := [], sending := none, intentReserved := 0
        repeater := true, restartPeriod := some 2 }) s

/-- An Air Channel at a warm restart: AWAIT_REMOVAL, or OFF when it was OFF (R23). -/
def restartChannel (c : Channel) : Channel := if c.state = .off then Channel.cold else awaitChannel

/-- A key slot change that is cut off lands or not, as the nonvolatile store has it (R178, assumption
log 7). -/
def resolveChange (s : State) : State :=
  match s.decoder.change with
  | none => s
  | some c =>
    let cut := modDecoder (fun d => { d with change := none }) { s with draws := s.draws + 1 }
    if Config.cutChangeLands s.draws then writeSlot c.slot c.after cut else cut

/-- The Management Decoder at a warm restart (R200). -/
def restartDecoder (s : State) : State :=
  { modDecoder (fun _ => { state := .idle, inHand := none, change := none }) (resolveChange s) with
    ringEngine := none }

/-- The Journal Queue at a warm restart: no reservation stands (R197). -/
def restartJournal (s : State) : State := modJournal (fun j => { j with reserved := 0 }) s

/-- The warm restart, block by block (R202). -/
def warmRestart (s : State) : State :=
  let ended := restartStore (restartJournal (restartGate (restartTap .b (restartTap .a s))))
  let rest := restartRing (restartDecoder ended)
  { rest with chans := ⟨restartChannel rest.chans.a, restartChannel rest.chans.b⟩ }

/-- The frame on ring-out is the answer DONE to a RESTART (R155). -/
def sendsRestart (s : State) : Bool :=
  decide (s.decoder.state = .restartPending) &&
    (match s.ring.sending with
     | some x =>
       decide (x.origin = .answer) && decide (x.frame.payload = [7, 0])
     | none => false)

/-- A frame finishes leaving ring-out; after the answer to a RESTART the warm restart is taken before
the arbiter takes the next frame (R154, R155). -/
def frameEnds (s : State) : State :=
  match s.ring.sending with
  | none => s
  | some x => if sendsRestart s then warmRestart (frameLeaves x s) else frameLeaves x s

/-! ### Repeater mode (R158, R159) -/

/-- The restart period ends; with no other cause standing, repeater mode ends at once when no frame is
passing on ring-in, and at the frame boundary otherwise (R158, R159). -/
def periodExpires (passing : Bool) (s : State) : State :=
  if s.ring.restartPeriod.isSome then
    modRing
      (fun r =>
        { r with restartPeriod := none, repeater := decide (r.gateNo = 0) || passing }) s
  else s

/-- The frame boundary on ring-in ends repeater mode once no cause stands (R159). -/
def leaveRepeater (s : State) : State :=
  if repeaterCause s then s else modRing (fun r => { r with repeater := false }) s

/-! ### Reset and power (R150, R158, R178) -/

/-- RST held, or power arriving: repeater mode, and a frame being sent is cut off (R158, R159). -/
def holdReset (s : State) : State :=
  { modRing (fun r => { r with repeater := true, sending := none }) (resolveChange s) with
    power := .held }

/-- Every volatile item at its cold-start value, with the pins, the key slots, the queue of commands and
the count of free values kept (R85, R106, R178). -/
def coldState (s : State) : State :=
  { State.reset with
    pending := s.pending, emerg := s.emerg, keyload := s.keyload, keys := s.keys, draws := s.draws }

/-- Cold start: GATE_NO sampled, every block at its cold-start state, leaves and indicators by the gate
state (R144, R150, R158, R159). -/
def coldStart (gateNo : Nat) (passing : Bool) (s : State) : State :=
  let cold := coldState (resolveChange s)
  let strapped :=
    modRing (fun r => { r with gateNo := gateNo, repeater := decide (gateNo = 0) || passing }) cold
  let leaf := leafOf (gateState strapped)
  driveIndicators
    (modGate (fun g => { g with leaf := leaf, leafGiven := [leaf], leafCause := leafCause strapped })
      strapped)

/-- Power lost: the part stops, and only the key slots stay (R178). -/
def losePower (s : State) : State := { coldState (resolveChange s) with power := .off }

end Sys2Proof.Machine
end

