-- ==== Sys2Proof/Machine/MgmtOps.lean ====
section
/-! DEFINITION. The Management Decoder (chapter 11), the protection checks (R187), the loader (R170 to
R173) and the owners of the requests: answers of DESCRIBE (R175), STATUS (R201, R207) and COUNTERS
(R196), SETUP (R169), GATE (R141), RESTART (R202), KEY_WRITE and KEY_LOCK (R188, R189). -/

namespace Sys2Proof.Machine

/-! ### Answers (R152, R199, R207) -/

/-- An answer formed: it fills a held place of the answer queue (R152). The place was held, so there is room
(assumption log 37). -/
def fillAnswer (request : Byte) (code : AnswerCode) (data : List Byte) (s : State) : State :=
  modRing
    (fun r =>
      let freed : Ring := { r with held := r.held - 1 }
      if answerUsed freed < 4 then
        { freed with filled := r.filled ++ [answerFrame r.gateNo request code data] }
      else freed) s

/-- The decoder's request answered, and the decoder left in a state (R199). -/
def finishRequest (next : DecoderState) (request : Request) (code : AnswerCode) (data : List Byte)
    (s : State) : State :=
  fillAnswer (BitVec.ofNat 8 (requestCode request)) code data
    (modDecoder (fun d => { d with state := next, inHand := none }) s)

/-- The decoder's request answered with a code and no data; the decoder is IDLE (R199). -/
def answerCode (request : Request) (code : AnswerCode) (s : State) : State :=
  finishRequest .idle request code [] s

/-- The decoder's request answered DONE with data; the decoder is IDLE (R199). -/
def answerData (request : Request) (data : List Byte) (s : State) : State :=
  finishRequest .idle request .done data s

/-- A request taken in hand: WORKING (R199). -/
def takeInHand (h : InHand) (s : State) : State :=
  modDecoder (fun d => { d with state := .working, inHand := some h }) s

/-! ### Open requests (R175, R196, R201) -/

/-- The descriptor, in the order and widths of R175 and R207. -/
def descriptor (s : State) : List Byte :=
  toBE 2 0x2F6E ++ toBE 2 0x0316 ++ toBE 1 1 ++ toBE 8 Config.gateIdentity.toNat ++
    toBE 1 s.ring.gateNo ++ toBE 2 2048 ++ toBE 1 32 ++ toBE 2 16384 ++ toBE 1 2 ++ toBE 2 512 ++
    toBE 2 256 ++ toBE 1 2 ++ toBE 2 1024 ++ toBE 1 32 ++ toBE 1 32 ++ toBE 1 4 ++ toBE 1 4 ++
    toBE 1 16 ++ toBE 1 8 ++ toBE 1 2 ++ toBE 1 16 ++ toBE 1 8 ++ toBE 1 4 ++ toBE 1 8 ++
    toBE 1 64 ++ toBE 2 512 ++ toBE 3 131076 ++ toBE 2 4614

/-- A fare bank in the STATUS answer: version and activation are 0 in EMPTY (R207). -/
def bankStatus (b : Bank) : List Byte :=
  toBE 1 (bankStateCode b.state) ++
    (if b.state = .empty then toBE 2 0 ++ toBE 3 0 else toBE 2 b.version ++ toBE 3 b.activation) ++
    toBE 1 b.refs

/-- The delta count (R109). -/
def deltaCount (h : Hotlist) : Nat := if h.deltaCond = .present then h.deltaOps.length else 0

/-- The loader in the STATUS answer (R207). -/
def loaderStatus (l : Option Loading) : List Byte :=
  match l with
  | none => toBE 1 0 ++ toBE 1 0 ++ toBE 3 0 ++ toBE 3 0
  | some l => toBE 1 1 ++ toBE 1 (loadKindCode l.kind) ++ toBE 3 l.length ++ toBE 3 l.received

/-- Bytes 1 to 9 of the STATUS answer: the gate, and the ring state (R207). -/
def gateStatus (s : State) : List Byte :=
  toBE 1 (gateStateCode (gateState s)) ++ toBE 1 (alarmCode s.gate.alarm) ++
    toBE 1 s.gate.queue.length ++ toBE 1 s.gate.reserved ++ toBE 1 s.gate.occupancy ++
    toBE 1 (freeFlags s) ++
    (match s.store.setup with
     | none => toBE 1 0 ++ toBE 1 0
     | some l => toBE 1 (gateModeCode l.mode) ++ toBE 1 (serviceCode l.service)) ++
    toBE 1 (bitOf s.ring.joined)

/-- The open records of the Journal Queue. -/
def openCount (j : Journal) : Nat := j.records.countP JournalRecord.isOpen

/-- The STATUS answer data (R201, R207). -/
def statusData (s : State) : List Byte :=
  gateStatus s ++ toBE 4 s.clock.lineTime ++ toBE 1 (lineFlags s) ++
    toBE 1 (chanStateCode s.chans.a.state) ++ toBE 1 (chanStateCode s.chans.b.state) ++
    toBE 1 (tapStateCode s.taps.a.state) ++ toBE 1 (tapStateCode s.taps.b.state) ++
    toBE 1 s.contexts.length ++ toBE 2 s.sightings.length ++ toBE 1 (insertionUsed s.ring) ++
    bankStatus s.store.bankX ++ bankStatus s.store.bankY ++
    toBE 2 s.hot.version ++ toBE 1 (mergeStateCode s.hot.merge) ++ toBE 2 (deltaCount s.hot) ++
    toBE 2 s.hot.localList.length ++ toBE 1 (bitOf s.hot.localFull) ++
    loaderStatus s.loader ++
    toBE 2 s.journal.records.length ++ toBE 1 s.journal.reserved ++
    toBE 2 (journalAvailable s.journal) ++ toBE 1 (openCount s.journal) ++
    toBE 2 s.journal.nextSequence

/-- The ten counters in the order of R195, the fare total last (R207). -/
def countersData (c : Counters) : List Byte :=
  toBE 4 c.entries ++ toBE 4 c.exits ++ toBE 4 c.reuses ++ toBE 4 c.recoveries ++
    toBE 4 c.refusals ++ toBE 4 c.cloneRefusals ++ toBE 4 c.unused ++ toBE 4 c.passages ++
    toBE 4 c.unrecorded ++ toBE 8 c.fareTotal

/-! ### SETUP, GATE, RESTART (R169, R141, R202) -/

/-- The line setup record of the parameters, when every field lies in its range (R169). -/
def setupOf (params : List Byte) : Option LineSetup :=
  let station := numOf params 1 2
  let zone := numOf params 3 3
  match gateModeOf (numOf params 4 4), serviceOf (numOf params 5 5) with
  | some mode, some service =>
    if 1 ≤ station ∧ station ≤ 65534 ∧ zone ≤ 15 then some ⟨station, zone, mode, service⟩ else none
  | _, _ => none

/-- SETUP: the record written, DUPLICATE_NUMBER cleared and the gate state derived anew (R169). -/
def ownSetup (params : List Byte) (s : State) : State :=
  match setupOf params with
  | none => answerCode .setup .badValue s
  | some l =>
    answerCode .setup .done
      (deriveGate
        (modRing (fun r => { r with duplicate := false })
          (modStore (fun t => { t with setup := some l }) s)))

/-- FREE_ON: the management free flag set, and FREE entered (R139, R141). -/
def freeOn (s : State) : State := deriveGate (modGate (fun g => { g with freeFlag := true }) s)

/-- FREE_OFF: the management free flag cleared (R140, R141). -/
def freeOff (s : State) : State := deriveGate (modGate (fun g => { g with freeFlag := false }) s)

/-- GATE, by its action (R141). -/
def ownGate (params : List Byte) (s : State) : State :=
  match numOf params 1 1 with
  | 1 => answerCode .gate .done (freeOn s)
  | 2 => answerCode .gate .done (freeOff s)
  | 3 => answerCode .gate .done (releaseAlarm s)
  | _ => answerCode .gate .badValue s

/-- COUNTERS_CLEAR: the counters read and set to 0 in one event (R196). -/
def ownCountersClear (s : State) : State :=
  answerData .countersClear (countersData s.journal.counters)
    (modCounters (fun _ => Counters.zero) s)

/-! ### Keys (R188, R189, R178) -/

/-- A key slot change asked of the nonvolatile store: the request stays in hand until it is complete
(R178, R199). -/
def askChange (h : InHand) (slot : Nat) (after : KeySlot) (s : State) : State :=
  modDecoder (fun d => { d with change := some ⟨slot, after⟩ }) (takeInHand h s)

/-- KEY_WRITE, in the order of R188. -/
def ownKeyWrite (h : InHand) (s : State) : State :=
  let slot := numOf h.params 1 1
  if 7 < slot then answerCode .keyWrite .badValue s
  else
    match slotAt s slot with
    | .locked _ => answerCode .keyWrite .slotLocked s
    | _ =>
      match keyRoleOf (numOf h.params 2 2) with
      | none => answerCode .keyWrite .badValue s
      | some role =>
        askChange h slot
          (.loaded
            { key := BitVec.ofNat 128 (numOf h.params 4 19), role := role
              version := numOf h.params 3 3 }) s

/-- KEY_LOCK, by the table of R189. -/
def ownKeyLock (h : InHand) (s : State) : State :=
  let slot := numOf h.params 1 1
  if 7 < slot then answerCode .keyLock .badValue s
  else
    match slotAt s slot with
    | .empty => answerCode .keyLock .badValue s
    | .locked _ => answerCode .keyLock .slotLocked s
    | .loaded e => askChange h slot (.locked e) s

/-- The state of a slot as its code (R203). -/
def slotStateCode : KeySlot → Nat
  | .empty => 0
  | .loaded _ => 1
  | .locked _ => 2

/-- The answer data of KEY_WRITE and KEY_LOCK: slot, role, version and state, never the key (R207). -/
def slotData (slot : Nat) (k : KeySlot) : List Byte :=
  toBE 1 slot ++ toBE 1 (((slotEntry k).map (fun e => keyRoleCode e.role)).getD 0) ++
    toBE 1 (((slotEntry k).map KeyEntry.version).getD 0) ++ toBE 1 (slotStateCode k)

/-- A key slot change completes in the nonvolatile store, and its request is answered DONE (R178). -/
def changeDone (s : State) : State :=
  match s.decoder.change, s.decoder.inHand with
  | some c, some h =>
    let written := writeSlot c.slot c.after (modDecoder (fun d => { d with change := none }) s)
    answerData h.request (slotData c.slot (slotAt written c.slot)) written
  | _, _ => s

/-! ### The loader (R170 to R173) -/

/-- The image bytes at the destination of a load. -/
def loadImage (s : State) (l : Loading) : List Byte :=
  match l.kind with
  | .fare => (bankOf s.store l.bank).image
  | _ => s.hot.image

/-- The greatest image length of a kind (R170). -/
def maxImage : LoadKind → Nat
  | .fare => 512
  | .full => 131076
  | .delta => 4614

/-- The loader in RECEIVING for an accepted LOAD_BEGIN (R170). -/
def beginLoad (kind : LoadKind) (bank : BankId) (length : Nat) (s : State) : State :=
  answerCode .loadBegin .done
    { s with loader := some { kind := kind, bank := bank, length := length, received := 0, phase := .data } }

/-- The destination of a LOAD_BEGIN judged by its holder (R170, item 3; R115, R120). A delta list in RECEIVING
keeps its two versions (the model's choice, assumption log 54). -/
def beginAt (kind : LoadKind) (length : Nat) (s : State) : State :=
  match kind with
  | .fare =>
    let bank := loadBank s.store
    if (bankOf s.store bank).state = .draining then answerCode .loadBegin .busy s
    else beginLoad .fare bank length (modBank bank (fun _ => Bank.cold) s)
  | .full =>
    if s.hot.merge = .idle then
      beginLoad .full .x length
        (modHot (fun h => { setShadow [] h with shadow := .loading, image := [] }) s)
    else answerCode .loadBegin .busy s
  | .delta =>
    if s.hot.deltaCond = .present then answerCode .loadBegin .busy s
    else
      beginLoad .delta .x length
        (modHot (fun h => { h with deltaCond := .receiving, deltaOps := [], image := [] }) s)

/-- LOAD_BEGIN: a load in progress is broken off, then kind, length and destination are judged (R170).-/
def ownLoadBegin (params : List Byte) (s : State) : State :=
  let broken := breakOff s
  match loadKindOf (numOf params 1 1) with
  | none => answerCode .loadBegin .badValue broken
  | some kind =>
    let length := numOf params 2 5
    if length = 0 ∨ maxImage kind < length then answerCode .loadBegin .badValue broken
    else beginAt kind length broken

/-- LOAD_DATA: accepted at the contiguous offset within the length, and otherwise the load is broken off
(R171). -/
def ownLoadData (h : InHand) (s : State) : State :=
  match s.loader with
  | none => answerCode .loadData .badSequence s
  | some l =>
    let offset := numOf h.params 1 4
    let data := h.params.drop 5
    if offset = l.received ∧ offset + data.length ≤ l.length then
      askLoader (.write data) (takeInHand h s)
    else answerCode .loadData .badSequence (breakOff s)

/-- A LOAD_END answered with a failure: the load is broken off (R172, R173). -/
def failLoad (code : AnswerCode) (s : State) : State := answerCode .loadEnd code (breakOff s)

/-- The loader's phase changed. -/
def setPhase (l : Loading) (p : LoadPhase) (s : State) : State :=
  { s with loader := some { l with phase := p } }

/-- The next read of a LOAD_END asked at the loader's place (R172). -/
def askRead (l : Loading) (p : LoadPhase) (s : State) : State := askLoader .read (setPhase l p s)

/-- LOAD_END: completeness, then the table code, which the ring engine computes from here under the line key
of this instant, or the contents when accepted uncoded (R172, R185). -/
def ownLoadEnd (h : InHand) (s : State) : State :=
  match s.loader with
  | none => answerCode .loadEnd .badSequence s
  | some l =>
    if l.received = l.length then
      let working := takeInHand h s
      if h.coded then
        match lineKey s with
        | some key => askRead l (.code 0) { working with ringEngine := some (.tableCode key []) }
        | none => failLoad .tableInvalid working
      else askRead l (.contents 0) working
    else failLoad .badSequence s

/-- A LOAD_END answered DONE: the loader IDLE (R172). -/
def loadDone (s : State) : State := answerCode .loadEnd .done { s with loader := none }

/-- A fare image judged and accepted: the bank PENDING, and ACTIVE at once when due (R165, R168). -/
def acceptFare (l : Loading) (s : State) : State :=
  let img := (bankOf s.store l.bank).image
  if fareImageGood img then
    let t := parseFareTable img
    loadDone
      (activateIfDue
        (modBank l.bank
          (fun b => { b with state := .pending, version := t.version, activation := t.activation }) s))
  else failLoad .tableInvalid s

/-- A full hotlist judged, and the swap (R121). -/
def acceptFull (s : State) : State :=
  match parseFull s.hot.image with
  | some es =>
    let version := imageHalf s.hot.image 0
    loadDone (modHot (fun h => swapBanks version (setShadow es h)) s)
  | none => failLoad .tableInvalid s

/-- A delta accepted: PRESENT, and the merge starts; or refused for want of room (R115, R116). -/
def acceptDelta (ops : List DeltaOp) (s : State) : State :=
  if countAfter (activeEntries s.hot) ops ≤ 16384 then
    loadDone
      (modHot
        (fun h =>
          startMerge
            { h with
              deltaCond := .present
              deltaOps := ops
              deltaBase := imageHalf h.image 0
              deltaNew := imageHalf h.image 2
              image := [] }) s)
  else failLoad .tableInvalid s

/-- A delta's contents and version judged; the reads of the room check follow, one for each operation
(R115). -/
def judgeDelta (l : Loading) (s : State) : State :=
  match parseDelta s.hot.image with
  | none => failLoad .tableInvalid s
  | some ops =>
    if imageHalf s.hot.image 0 = s.hot.version then
      if ops.isEmpty then acceptDelta ops s else askRead l (.room 0) s
    else failLoad .versionMismatch s

/-- The contents check of a load, once its image has been read (R172, step 3). -/
def judgeContents (l : Loading) (s : State) : State :=
  match l.kind with
  | .fare => acceptFare l s
  | .full => acceptFull s
  | .delta => judgeDelta l s

/-- The bytes that one read of a LOAD_END check takes (assumption log 15). -/
def readSize : Nat := 64

/-- The piece of the image that the read at an offset gives (R185). -/
def imagePiece (s : State) (l : Loading) (n : Nat) : List Byte :=
  ((loadImage s l).drop n).take readSize

/-- A piece of the image arrives at the ring engine, which computes the table code from it (R185). -/
def feedTableCode (piece : List Byte) (s : State) : State :=
  match s.ringEngine with
  | some (.tableCode key read) => { s with ringEngine := some (.tableCode key (read ++ piece)) }
  | some (.lineCode _) => s
  | none => s

/-- A read of a LOAD_END check served (R172, R185). -/
def loaderReads (l : Loading) (s : State) : State :=
  match l.phase with
  | .code n =>
    let fed := feedTableCode (imagePiece s l n) s
    if l.length ≤ n + readSize then setPhase l .coding fed
    else askRead l (.code (n + readSize)) fed
  | .contents n =>
    if l.length ≤ n + readSize then judgeContents l s
    else askRead l (.contents (n + readSize)) s
  | .room n =>
    match parseDelta s.hot.image with
    | none => failLoad .tableInvalid s
    | some ops => if ops.length ≤ n + 1 then acceptDelta ops s else askRead l (.room (n + 1)) s
  | _ => s

/-- The bytes of a LOAD_DATA written to the destination (R171). -/
def writeImage (l : Loading) (data : List Byte) (s : State) : State :=
  match l.kind with
  | .fare => modBank l.bank (fun b => { b with image := b.image ++ data }) s
  | _ => modHot (fun h => { h with image := h.image ++ data }) s

/-- The write of a LOAD_DATA served: the bytes received rise, and the request is answered DONE (R171).-/
def loaderWrites (data : List Byte) (s : State) : State :=
  match s.loader with
  | none => s
  | some l =>
    answerCode .loadData .done
      { writeImage l data s with loader := some { l with received := l.received + data.length } }

/-- The table code computed over the image read is compared with the one that LOAD_END carries (R172,
R185). -/
def verifyTable (key : Key) (read : List Byte) (s : State) : State :=
  match s.loader, s.decoder.inHand with
  | some l, some h =>
    if h.params = codeOf 8 key (tableCodeInput l.kind l.length read) then
      askRead l (.contents 0) s
    else failLoad .tableInvalid s
  | _, _ => s

/-! ### The owner of a request, once it has passed (R186, R199) -/

/-- A request handed to its owner (table of section 11.6). -/
def ownRequest (h : InHand) (s : State) : State :=
  match h.request with
  | .describe => answerData .describe (descriptor s) s
  | .status => answerData .status (statusData s) s
  | .counters => answerData .counters (countersData s.journal.counters) s
  | .countersClear => ownCountersClear s
  | .setup => ownSetup h.params s
  | .gate => ownGate h.params s
  | .restart => finishRequest .restartPending .restart .done [] s
  | .loadBegin => ownLoadBegin h.params s
  | .loadData => ownLoadData h s
  | .loadEnd => ownLoadEnd h s
  | .keyWrite => ownKeyWrite h s
  | .keyLock => ownKeyLock h s

/-! ### The checks (R198, R187) -/

/-- The open requests (R186). -/
def isOpenRequest : Request → Bool
  | .describe | .status | .counters => true
  | _ => false

/-- The requests under the strap (R187, check 4). -/
def needsStrap : Request → Bool
  | .keyWrite | .keyLock => true
  | _ => false

/-- The request time is fresh (R187, check 2). -/
def fresh (s : State) (time : Nat) : Bool :=
  s.clock.isSet && decide (time ≤ s.clock.lineTime + 10) && decide (s.clock.lineTime ≤ time + 10)

/-- Check 4, the strap, and then the owner (R187). -/
def strapCheck (h : InHand) (s : State) : State :=
  if needsStrap h.request && !s.keyload then answerCode h.request .noStrap s else ownRequest h s

/-- A protected request judged up to the computation of its line code (R187). -/
def protect (h : InHand) (s : State) : State :=
  match lineKey s with
  | none => if s.keyload then strapCheck h s else answerCode h.request .unprotected s
  | some key =>
    if fresh s h.time then { takeInHand h s with ringEngine := some (.lineCode key) }
    else answerCode h.request .stale s

/-- The line code computed is compared with the one carried (R187, check 3). -/
def verifyLine (key : Key) (s : State) : State :=
  match s.decoder.inHand with
  | none => s
  | some h =>
    if h.code = codeOf 8 key (lineCodeInput h) then strapCheck { h with coded := true } s
    else answerCode h.request .unprotected s

/-- The reads of a table code have all arrived at the ring engine (R185). -/
def tableRead (s : State) : Bool := decide (s.loader.map Loading.phase = some .coding)

/-- The ring engine hands its result to the decoder or the loader (R184). A table code has none before the
last read has arrived (R185; assumption log 3). -/
def ringEngineDone (job : RingJob) (s : State) : State :=
  let idle := { s with ringEngine := none }
  match job with
  | .lineCode key => verifyLine key idle
  | .tableCode key read => if tableRead s then verifyTable key read idle else s

/-- A request taken by the idle decoder: its length, its protection, its owner (R198, R199). -/
def judgeRequest (r : Request) (f : RingFrame) (s : State) : State :=
  if requestLengthGood r f.payload then
    let h := inHandOf r (frameDest f) f.payload
    if isOpenRequest r then ownRequest h s else protect h s
  else answerCode r .badValue s

/-! ### Receipt of a request (R152, R199) -/

/-- A place of the answer queue held (R152). -/
def holdPlace (s : State) : State := modRing (fun r => { r with held := r.held + 1 }) s

/-- A request that has a place: judged by the idle decoder, answered BUSY by any other (R199). The BUSY
answer to a request of length 0 carries request code 0, as its BAD_VALUE would (R198; assumption log 26). -/
def handRequest (f : RingFrame) (judge : State → State) (s : State) : State :=
  if s.decoder.state = .idle then judge s
  else fillAnswer (BitVec.ofNat 8 (numOf f.payload 1 1)) .busy [] s

/-- A management request received: forwarded when for all gates, dropped with a full answer queue, and
handed to the decoder otherwise (R151, R152). -/
def receiveRequest (f : RingFrame) (judge : State → State) (s : State) : State :=
  let passed := forwardIfAll f s
  if answerUsed s.ring < 4 then handRequest f judge (holdPlace passed) else passed

/-- The frame is a request that this gate takes and whose code names a request (R151, R203). -/
def requestArrives (s : State) (r : Request) (f : RingFrame) : Bool :=
  receives s f && !strips s f && takesRequest s f &&
    decide (requestOf (numOf f.payload 1 1) = some r)

/-- A request of one code arrives; a frame that is none of them changes nothing. -/
def arriveRequest (r : Request) (f : RingFrame) (s : State) : State :=
  if requestArrives s r f then receiveRequest f (judgeRequest r f) s else s

/-- A protected request arrives while the KEYLOAD pin stands at a level (R187). -/
def arriveProtected (r : Request) (f : RingFrame) (keyload : Bool) (s : State) : State :=
  arriveRequest r f { s with keyload := keyload }

/-- A GATE request carries an action, or is of a bad length, which R198 answers whatever it carries. -/
def carriesAction (f : RingFrame) (admits : Nat → Bool) : Bool :=
  !requestLengthGood .gate f.payload || admits (numOf (requestParams f.payload) 1 1)

/-- A GATE request with an action arrives (R141). -/
def arriveGate (admits : Nat → Bool) (f : RingFrame) (keyload : Bool) (s : State) : State :=
  if carriesAction f admits then arriveProtected .gate f keyload s else { s with keyload := keyload }

/-- The judgement of a request whose code names none: UNKNOWN, or BAD_VALUE for an empty payload
(R198). -/
def judgeUnknown (f : RingFrame) (s : State) : State :=
  fillAnswer (BitVec.ofNat 8 (numOf f.payload 1 1))
    (if f.payload.isEmpty then .badValue else .unknown) [] s

/-- A request whose code names no request arrives (R198). -/
def arriveUnknown (f : RingFrame) (s : State) : State :=
  if receives s f && !strips s f && takesRequest s f &&
      (requestOf (numOf f.payload 1 1)).isNone then
    receiveRequest f (judgeUnknown f) s
  else s

end Sys2Proof.Machine
end

