-- ==== Sys2Proof/Machine/Air.lean ====
section
/-! DEFINITION. The commands of the card path: the Air Channels' windows and timers, the exchange-ended
event, the claim hold and the code engines (chapters 1, 2 and 10). -/

namespace Sys2Proof.Machine

/-- POLL_TIMER_EXPIRY (R17, R21). -/
def execPollTimerExpiry (sd : Side) (s : State) : Host.Outcome State Fault Refusal :=
  answered (live (pollExpires sd) s)

/-- AIR_ANSWER_ARRIVAL (R10 to R12, R17, R21). -/
def execAirAnswerArrival (sd : Side) (report : AirReport) (s : State) :
    Host.Outcome State Fault Refusal :=
  answered (live (answerArrives sd report) s)

/-- ANSWER_TIMER_EXPIRY (R10 to R12). -/
def execAnswerTimerExpiry (sd : Side) (s : State) : Host.Outcome State Fault Refusal :=
  answered (live (answerExpires sd) s)

/-- FIELD_EMPTY_TIMEOUT (R21). -/
def execFieldEmptyTimeout (sd : Side) (s : State) : Host.Outcome State Fault Refusal :=
  answered (live (fieldEmptied sd) s)

/-- EXCHANGE_ENDED (R46, R20). -/
def execExchangeEnded (sd : Side) (s : State) : Host.Outcome State Fault Refusal :=
  answered (live (exchangeEnds sd) s)

/-- An engine completes what it computes; an idle engine gives nothing (R184). The KEYLOAD pin is
sampled at the instant (R187). -/
def engineCompletes (engine : EngineId) (keyload : Bool) (s : State) : State :=
  match engine with
  | .channel sd =>
    match s.engines.get sd with
    | some job => chanEngineDone sd job s
    | none => s
  | .ring =>
    match s.ringEngine with
    | some job => ringEngineDone job { s with keyload := keyload }
    | none => { s with keyload := keyload }

/-- CODE_ENGINE_DONE (R184). -/
def execCodeEngineDone (engine : EngineId) (keyload : Bool) (s : State) :
    Host.Outcome State Fault Refusal :=
  answered (live (engineCompletes engine keyload) s)

/-- CLAIM_HOLD_EXPIRY (R38, R40). -/
def execClaimHoldExpiry (sd : Side) (s : State) : Host.Outcome State Fault Refusal :=
  answered (live (holdExpires sd) s)

end Sys2Proof.Machine
end

