-- ==== Sys2Proof/Machine/Lane.lean ====
section
/-! DEFINITION. The commands of the gate path: lane events, the pass and STOP timers, and the EMERG pin
(chapter 7). -/

namespace Sys2Proof.Machine

/-- ENTER_A, ENTER_B (R130). -/
def execEnter (sd : Side) (s : State) : Host.Outcome State Fault Refusal :=
  answered (live (laneEnter sd) s)

/-- PASSED_A, PASSED_B (R130 to R132). -/
def execPassed (sd : Side) (s : State) : Host.Outcome State Fault Refusal :=
  answered (live (lanePassed sd) s)

/-- CLEAR (R130, R132, R138). -/
def execClear (s : State) : Host.Outcome State Fault Refusal := answered (live laneClear s)

/-- FORCED (R136). -/
def execForced (s : State) : Host.Outcome State Fault Refusal := answered (live laneForced s)

/-- OCCUPIED_LONG (R136). -/
def execOccupiedLong (s : State) : Host.Outcome State Fault Refusal := answered (live laneOccupied s)

/-- The pass timer is running (R133). -/
def passTimerRuns (s : State) : Bool :=
  match s.gate.passTimer with
  | .running _ => true
  | _ => false

/-- The running pass timer expires (R134). -/
def passTimerEnds (s : State) : State := if passTimerRuns s then passExpiry s else s

/-- PASS_TIMER_EXPIRY (R134). -/
def execPassTimerExpiry (s : State) : Host.Outcome State Fault Refusal :=
  answered (live passTimerEnds s)

/-- A side's STOP timer expires (R143). -/
def stopTimerEnds (sd : Side) (s : State) : State :=
  modGate (fun g => { g with stopTimer := g.stopTimer.set sd none }) s

/-- STOP_TIMER_EXPIRY (R143). -/
def execStopTimerExpiry (sd : Side) (s : State) : Host.Outcome State Fault Refusal :=
  answered (live (stopTimerEnds sd) s)

/-- EMERG_ASSERTED (R139). The level of the pin stands whether or not the part runs. -/
def execEmergAsserted (s : State) : Host.Outcome State Fault Refusal :=
  answered (live deriveGate { s with emerg := true })

/-- EMERG_RELEASED (R140). The level of the pin stands whether or not the part runs. -/
def execEmergReleased (s : State) : Host.Outcome State Fault Refusal :=
  answered (live deriveGate { s with emerg := false })

end Sys2Proof.Machine
end

