-- ==== Sys2Proof/Machine/Line.lean ====
section
/-! DEFINITION. The commands of the ring path that are not management requests: frames received,
stripped, dropped and forwarded, the end of a frame on ring-out, the sent list and the line time
(chapters 5 and 8). A frame that is not one of the command's event changes nothing. -/

namespace Sys2Proof.Machine

/-- A SIGHTING frame received: taken, and forwarded when for all gates (R151, R92). -/
def receiveSighting (f : RingFrame) (s : State) : State :=
  if receives s f && !strips s f && takesSighting s f then
    let passed := forwardIfAll f s
    match parseSighting f with
    | some x => arriveSighting x passed
    | none => passed
  else s

/-- SIGHTING_ARRIVAL (R92). -/
def execSightingArrival (f : RingFrame) (s : State) : Host.Outcome State Fault Refusal :=
  answered (live (receiveSighting f) s)

/-- A CLONE_NOTICE frame received: taken, and forwarded when for all gates (R151, R103). -/
def receiveNotice (f : RingFrame) (s : State) : State :=
  if receives s f && !strips s f && takesNotice s f then
    let passed := forwardIfAll f s
    match parseNotice f with
    | some u => arriveNotice u passed
    | none => passed
  else s

/-- CLONE_NOTICE_ARRIVAL (R103). -/
def execCloneNoticeArrival (f : RingFrame) (s : State) : Host.Outcome State Fault Refusal :=
  answered (live (receiveNotice f) s)

/-- A BEACON frame from the concentrator received: taken and forwarded (R151, R156, R160). -/
def receiveBeacon (f : RingFrame) (s : State) : State :=
  if receives s f && !strips s f && takesBeacon f then
    let passed := forwardFrame f s
    match parseBeacon f with
    | some t => takeBeacon t passed
    | none => passed
  else s

/-- BEACON (R160). -/
def execBeacon (f : RingFrame) (s : State) : Host.Outcome State Fault Refusal :=
  answered (live (receiveBeacon f) s)

/-- BEACON_WATCH_EXPIRY (R156). -/
def execBeaconWatchExpiry (s : State) : Host.Outcome State Fault Refusal :=
  answered (live watchExpires s)

/-- LINE_TIME_ADVANCE (R161). -/
def execLineTimeAdvance (s : State) : Host.Outcome State Fault Refusal :=
  answered (live advanceLineTime s)

/-- An own frame comes back (R147). -/
def receiveOwn (f : RingFrame) (s : State) : State :=
  if receives s f && strips s f then stripFrame f s else s

/-- FRAME_STRIPPED (R147, R149). -/
def execFrameStripped (f : RingFrame) (s : State) : Host.Outcome State Fault Refusal :=
  answered (live (receiveOwn f) s)

/-- The bytes from a delimiter on: a good frame among them is not this event's, and one that is not good
is neither forwarded nor taken and leaves no trace (R146). -/
def dropBytes (_bytes : List Byte) (s : State) : State := s

/-- FRAME_DROPPED (R146). -/
def execFrameDropped (bytes : List Byte) (s : State) : Host.Outcome State Fault Refusal :=
  answered (live (dropBytes bytes) s)

/-- A good frame that this gate neither strips nor takes joins the forward buffer (R151, R153). -/
def receivePassing (f : RingFrame) (s : State) : State :=
  if receives s f && !strips s f && takenByNone s f then forwardFrame f s else s

/-- FRAME_FORWARDED (R153). -/
def execFrameForwarded (f : RingFrame) (s : State) : Host.Outcome State Fault Refusal :=
  answered (live (receivePassing f) s)

/-- RING_OUT_FRAME_END (R154, R155). -/
def execRingOutFrameEnd (s : State) : Host.Outcome State Fault Refusal := answered (live frameEnds s)

/-- SENT_ENTRY_AGEING (R148). -/
def execSentEntryAgeing (s : State) : Host.Outcome State Fault Refusal := answered (live ageOldest s)

/-- A management request received with all 4 places of the answer queue in use: it is dropped, and
forwarded when for all gates (R152). -/
def dropRequest (f : RingFrame) (s : State) : State :=
  if receives s f && !strips s f && takesRequest s f && decide (4 ≤ answerUsed s.ring) then
    forwardIfAll f s
  else s

/-- ANSWER_QUEUE_FULL_DROP (R152). -/
def execAnswerQueueFullDrop (f : RingFrame) (s : State) : Host.Outcome State Fault Refusal :=
  answered (live (dropRequest f) s)

end Sys2Proof.Machine
end

