-- ==== Sys2Proof/Machine/Power.lean ====
section
/-! DEFINITION. The commands of restart, reset and power (chapter 8 and the restart rules of every
chapter). -/

namespace Sys2Proof.Machine

/-- The RESTART answer finishes leaving ring-out, and the warm restart is taken (R155, R202). -/
def restartLeaves (s : State) : State := if sendsRestart s then frameEnds s else s

/-- WARM_RESTART (R155). -/
def execWarmRestart (s : State) : Host.Outcome State Fault Refusal := answered (live restartLeaves s)

/-- RESTART_PERIOD_EXPIRY (R158). -/
def execRestartPeriodExpiry (passing : Bool) (s : State) : Host.Outcome State Fault Refusal :=
  answered (live (periodExpires passing) s)

/-- REPEATER_MODE_EXIT (R159). -/
def execRepeaterModeExit (s : State) : Host.Outcome State Fault Refusal :=
  answered (live leaveRepeater s)

/-- RST_ASSERTED (R158, R159): at any time, the arrival of power included. -/
def execRstAsserted (s : State) : Host.Outcome State Fault Refusal := answered (holdReset s)

/-- COLD_START (R150): at any time, the end of RST or of the power-on reset. -/
def execColdStart (gateNo : BitVec 4) (passing : Bool) (s : State) :
    Host.Outcome State Fault Refusal :=
  answered (settle (coldStart gateNo.toNat passing s))

/-- POWER_LOSS (R178). -/
def execPowerLoss (s : State) : Host.Outcome State Fault Refusal := answered (losePower s)

end Sys2Proof.Machine
end

