-- ==== Sys2Proof/Machine/ClockOps.lean ====
section
/-! DEFINITION. The local timer (section 8.7): one millisecond of it, which the step takes when no
command waits (assumption log 1). Every timer moves, and those that have run out are taken one after the
other in the order of assumption log 2. -/

namespace Sys2Proof.Machine

/-- A countdown timer one millisecond on. -/
def countDown (t : Option Nat) : Option Nat := t.map (fun n => n - 1)

/-- A countdown timer has run out. -/
def ranOut (t : Option Nat) : Bool := decide (t = some 0)

/-- A channel's timers one millisecond on (section 1.7). -/
def tickChannel (c : Channel) : Channel :=
  { c with
    answerTimer := countDown c.answerTimer
    pollTimer := countDown c.pollTimer
    fieldEmpty := c.fieldEmpty.map (fun n => n + 1) }

/-- The pass timer one millisecond on (R133). -/
def tickPass : PassTimer → PassTimer
  | .running left => .running (left - 1)
  | t => t

/-- A STOP timer one millisecond on (R143). -/
def tickStop (t : Option StopTimer) : Option StopTimer := t.map (fun t => { t with left := t.left - 1 })

/-- The local timer and the second phase one millisecond on (R161). -/
def tickClock (c : Clock) : Clock :=
  { c with
    localMs := c.localMs + 1
    phase := if c.isSet && !c.hold then c.phase + 1 else c.phase }

/-- Every timer one millisecond on. -/
def moveTimers (s : State) : State :=
  { s with
    chans := ⟨tickChannel s.chans.a, tickChannel s.chans.b⟩
    taps :=
      ⟨{ s.taps.a with hold := countDown s.taps.a.hold },
        { s.taps.b with hold := countDown s.taps.b.hold }⟩
    gate :=
      { s.gate with
        passTimer := tickPass s.gate.passTimer
        stopTimer := ⟨tickStop s.gate.stopTimer.a, tickStop s.gate.stopTimer.b⟩ }
    ring :=
      { s.ring with
        watch := countDown s.ring.watch
        restartPeriod := countDown s.ring.restartPeriod }
    clock := tickClock s.clock }

/-- An expiry taken when it is due. -/
def fire (due : State → Bool) (f : State → State) (s : State) : State :=
  if due s then settle (f s) else s

/-- The pass timer has run out. -/
def passDue (s : State) : Bool := decide (s.gate.passTimer = .running 0)

/-- A STOP timer has run out. -/
def stopDue (sd : Side) (s : State) : Bool :=
  ranOut ((s.gate.stopTimer.get sd).map StopTimer.left)

/-- The oldest entry of the sent list has stood 1000 ms (R148). -/
def ageingDue (s : State) : Bool :=
  match s.ring.sent with
  | e :: _ => decide (e.sentAt + 1000 ≤ s.clock.localMs)
  | [] => false

/-- Every entry of the sent list that has stood 1000 ms removed (R148). -/
def ageAll (s : State) : State :=
  modRing (fun r => { r with sent := r.sent.filter (fun e => decide (s.clock.localMs < e.sentAt + 1000)) }) s

/-- The expiries of one side's channel and claim hold. -/
def fireSide (sd : Side) (s : State) : State :=
  fire (fun s => ranOut (s.chans.get sd).pollTimer) (pollExpires sd)
    (fire (fun s => decide (300 ≤ ((s.chans.get sd).fieldEmpty.getD 0))) (fieldEmptied sd)
      (fire (fun s => ranOut (s.taps.get sd).hold) (holdExpires sd)
        (fire (fun s => ranOut (s.chans.get sd).answerTimer) (answerExpires sd) s)))

/-- The expiries of ring and line time. -/
def fireLine (s : State) : State :=
  fire ageingDue ageAll
    (fire (fun s => decide (1000 ≤ s.clock.phase)) advanceLineTime
      (fire (fun s => ranOut s.ring.watch) watchExpires
        (fire (fun s => ranOut s.ring.restartPeriod) (periodExpires false) s)))

/-- The expiries of the gate. -/
def fireGate (s : State) : State :=
  fire passDue passTimerEnds
    (fire (stopDue .b) (stopTimerEnds .b) (fire (stopDue .a) (stopTimerEnds .a) s))

/-- One millisecond of the local timer of a running part. -/
def tick (s : State) : State :=
  if s.power = .running then fireSide .b (fireSide .a (fireGate (fireLine (moveTimers s)))) else s

end Sys2Proof.Machine
end

