-- ==== Sys2Proof/Machine/Mgmt.lean ====
section
/-! DEFINITION. The management requests, one command for each (chapter 11). Each arrives as a ring frame;
the checks of R198 and R187 and the owner of the request follow, at once or when an engine, the memory
port or the nonvolatile store has done its part. -/

namespace Sys2Proof.Machine

/-- DESCRIBE (R175). -/
def execDescribe (f : RingFrame) (s : State) : Host.Outcome State Fault Refusal :=
  answered (live (arriveRequest .describe f) s)

/-- STATUS (R201). -/
def execStatus (f : RingFrame) (s : State) : Host.Outcome State Fault Refusal :=
  answered (live (arriveRequest .status f) s)

/-- COUNTERS (R196). -/
def execCounters (f : RingFrame) (s : State) : Host.Outcome State Fault Refusal :=
  answered (live (arriveRequest .counters f) s)

/-- COUNTERS_CLEAR (R196). -/
def execCountersClear (f : RingFrame) (keyload : Bool) (s : State) :
    Host.Outcome State Fault Refusal :=
  answered (live (arriveProtected .countersClear f keyload) s)

/-- SETUP (R169). -/
def execSetup (f : RingFrame) (keyload : Bool) (s : State) : Host.Outcome State Fault Refusal :=
  answered (live (arriveProtected .setup f keyload) s)

/-- GATE with FREE_ON (R141). -/
def execGateFreeOn (f : RingFrame) (keyload : Bool) (s : State) : Host.Outcome State Fault Refusal :=
  answered (live (arriveGate (fun a => decide (a = 1)) f keyload) s)

/-- GATE with FREE_OFF (R141). -/
def execGateFreeOff (f : RingFrame) (keyload : Bool) (s : State) : Host.Outcome State Fault Refusal :=
  answered (live (arriveGate (fun a => decide (a = 2)) f keyload) s)

/-- GATE with ALARM_RELEASE (R141). -/
def execGateAlarmRelease (f : RingFrame) (keyload : Bool) (s : State) :
    Host.Outcome State Fault Refusal :=
  answered (live (arriveGate (fun a => decide (a = 3)) f keyload) s)

/-- RESTART (R202). -/
def execRestart (f : RingFrame) (keyload : Bool) (s : State) : Host.Outcome State Fault Refusal :=
  answered (live (arriveProtected .restart f keyload) s)

/-- LOAD_BEGIN (R170). -/
def execLoadBegin (f : RingFrame) (keyload : Bool) (s : State) : Host.Outcome State Fault Refusal :=
  answered (live (arriveProtected .loadBegin f keyload) s)

/-- LOAD_DATA (R171). -/
def execLoadData (f : RingFrame) (keyload : Bool) (s : State) : Host.Outcome State Fault Refusal :=
  answered (live (arriveProtected .loadData f keyload) s)

/-- LOAD_END (R172). -/
def execLoadEnd (f : RingFrame) (keyload : Bool) (s : State) : Host.Outcome State Fault Refusal :=
  answered (live (arriveProtected .loadEnd f keyload) s)

/-- KEY_WRITE (R188). -/
def execKeyWrite (f : RingFrame) (keyload : Bool) (s : State) : Host.Outcome State Fault Refusal :=
  answered (live (arriveProtected .keyWrite f keyload) s)

/-- KEY_LOCK (R189). -/
def execKeyLock (f : RingFrame) (keyload : Bool) (s : State) : Host.Outcome State Fault Refusal :=
  answered (live (arriveProtected .keyLock f keyload) s)

/-- UNKNOWN_REQUEST (R198). -/
def execUnknownRequest (f : RingFrame) (s : State) : Host.Outcome State Fault Refusal :=
  answered (live (arriveUnknown f) s)

/-- NONVOLATILE_WRITE_DONE (R178). -/
def execNonvolatileWriteDone (s : State) : Host.Outcome State Fault Refusal :=
  answered (live changeDone s)

/-- GATE with an action that is none of the three (R141). -/
def execGateActionBadValue (f : RingFrame) (keyload : Bool) (s : State) :
    Host.Outcome State Fault Refusal :=
  answered (live (arriveGate (fun a => !decide (1 ≤ a ∧ a ≤ 3)) f keyload) s)

end Sys2Proof.Machine
end

