-- ==== Sys2Proof/Machine/Store.lean ====
section
/-! DEFINITION. The commands of the memory port: the grants of the store arbiter and the local hotlist
addition (chapters 6 and 9). Each grant's command is one access, taken whole; a command that names a
grant which is not the one in use changes nothing. -/

namespace Sys2Proof.Machine

/-- A side's lookup served (R111, R30). -/
def serveLookup (sd : Side) (s : State) : State :=
  let ready := grantReady s
  if ready.arb.inUse = some (.tap sd .lookup) then check4 sd (endGrant ready) else s

/-- HOTLIST_LOOKUP (R111). -/
def execHotlistLookup (sd : Side) (s : State) : Host.Outcome State Fault Refusal :=
  answered (live (serveLookup sd) s)

/-- A side's read of its referenced fare bank served (R174). -/
def serveBankRead (sd : Side) (s : State) : State :=
  let ready := grantReady s
  match ready.arb.inUse with
  | some (.tap side a) =>
    if side = sd ∧ a ≠ .lookup then bankCheck sd a (endGrant ready) else s
  | _ => s

/-- FARE_BANK_READ (R174). -/
def execFareBankRead (sd : Side) (s : State) : Host.Outcome State Fault Refusal :=
  answered (live (serveBankRead sd) s)

/-- LOCAL_HOTLIST_ADDITION (R113, R174): a UID is offered, and judged at once at a free port or, while a
grant is in use, at the end of that grant (assumption log 13). -/
def execLocalHotlistAddition (s : State) (u : Uid := 0) : Host.Outcome State Fault Refusal :=
  answered (live (offerLocal u) s)

/-- A merge step served (R116). -/
def serveMerge (s : State) : State :=
  let ready := grantReady s
  if ready.arb.inUse = some .merge then modHot mergeAdvance (endGrant ready) else s

/-- MERGE_STEP (R116 to R118). -/
def execMergeStep (s : State) : Host.Outcome State Fault Refusal := answered (live serveMerge s)

/-- A LOAD_DATA write served (R171). -/
def serveWrite (s : State) : State :=
  let ready := grantReady s
  match ready.arb.inUse with
  | some (.loader (.write data)) => loaderWrites data (endGrant ready)
  | _ => s

/-- LOADER_WRITE (R171). -/
def execLoaderWrite (s : State) : Host.Outcome State Fault Refusal := answered (live serveWrite s)

/-- A read of a LOAD_END check served (R172). -/
def serveRead (s : State) : State :=
  let ready := grantReady s
  match ready.arb.inUse, ready.loader with
  | some (.loader .read), some l => loaderReads l (endGrant ready)
  | _, _ => s

/-- LOADER_READ (R172). -/
def execLoaderRead (s : State) : Host.Outcome State Fault Refusal := answered (live serveRead s)

end Sys2Proof.Machine
end

