-- ==== Sys2Proof/Machine/Dispatch.lean ====
section
/-! DEFINITION. The dispatch: one arm for each command of the table, one direct call of its meaning. -/

namespace Sys2Proof.Machine

/-- The effect of a command on everything but the queue of commands. -/
def exec (i : Instr) (s : State) : Host.Outcome State Fault Refusal :=
  match i with
  | .pollTimerExpiry sd => Sys2Proof.Machine.execPollTimerExpiry sd s
  | .airAnswerArrival sd report => Sys2Proof.Machine.execAirAnswerArrival sd report s
  | .answerTimerExpiry sd => Sys2Proof.Machine.execAnswerTimerExpiry sd s
  | .fieldEmptyTimeout sd => Sys2Proof.Machine.execFieldEmptyTimeout sd s
  | .exchangeEnded sd => Sys2Proof.Machine.execExchangeEnded sd s
  | .hotlistLookup sd => Sys2Proof.Machine.execHotlistLookup sd s
  | .fareBankRead sd => Sys2Proof.Machine.execFareBankRead sd s
  | .codeEngineDone engine keyload => Sys2Proof.Machine.execCodeEngineDone engine keyload s
  | .claimHoldExpiry sd => Sys2Proof.Machine.execClaimHoldExpiry sd s
  | .sightingArrival f => Sys2Proof.Machine.execSightingArrival f s
  | .cloneNoticeArrival f => Sys2Proof.Machine.execCloneNoticeArrival f s
  | .localHotlistAddition u => Sys2Proof.Machine.execLocalHotlistAddition s u
  | .mergeStep => Sys2Proof.Machine.execMergeStep s
  | .loaderWrite => Sys2Proof.Machine.execLoaderWrite s
  | .loaderRead => Sys2Proof.Machine.execLoaderRead s
  | .enter sd => Sys2Proof.Machine.execEnter sd s
  | .passed sd => Sys2Proof.Machine.execPassed sd s
  | .clear => Sys2Proof.Machine.execClear s
  | .forced => Sys2Proof.Machine.execForced s
  | .occupiedLong => Sys2Proof.Machine.execOccupiedLong s
  | .passTimerExpiry => Sys2Proof.Machine.execPassTimerExpiry s
  | .stopTimerExpiry sd => Sys2Proof.Machine.execStopTimerExpiry sd s
  | .emergAsserted => Sys2Proof.Machine.execEmergAsserted s
  | .emergReleased => Sys2Proof.Machine.execEmergReleased s
  | .beacon f => Sys2Proof.Machine.execBeacon f s
  | .beaconWatchExpiry => Sys2Proof.Machine.execBeaconWatchExpiry s
  | .lineTimeAdvance => Sys2Proof.Machine.execLineTimeAdvance s
  | .frameStripped f => Sys2Proof.Machine.execFrameStripped f s
  | .frameDropped bytes => Sys2Proof.Machine.execFrameDropped bytes s
  | .frameForwarded f => Sys2Proof.Machine.execFrameForwarded f s
  | .ringOutFrameEnd => Sys2Proof.Machine.execRingOutFrameEnd s
  | .sentEntryAgeing => Sys2Proof.Machine.execSentEntryAgeing s
  | .answerQueueFullDrop f => Sys2Proof.Machine.execAnswerQueueFullDrop f s
  | .describe f => Sys2Proof.Machine.execDescribe f s
  | .status f => Sys2Proof.Machine.execStatus f s
  | .counters f => Sys2Proof.Machine.execCounters f s
  | .countersClear f keyload => Sys2Proof.Machine.execCountersClear f keyload s
  | .setup f keyload => Sys2Proof.Machine.execSetup f keyload s
  | .gateFreeOn f keyload => Sys2Proof.Machine.execGateFreeOn f keyload s
  | .gateFreeOff f keyload => Sys2Proof.Machine.execGateFreeOff f keyload s
  | .gateAlarmRelease f keyload => Sys2Proof.Machine.execGateAlarmRelease f keyload s
  | .restart f keyload => Sys2Proof.Machine.execRestart f keyload s
  | .loadBegin f keyload => Sys2Proof.Machine.execLoadBegin f keyload s
  | .loadData f keyload => Sys2Proof.Machine.execLoadData f keyload s
  | .loadEnd f keyload => Sys2Proof.Machine.execLoadEnd f keyload s
  | .keyWrite f keyload => Sys2Proof.Machine.execKeyWrite f keyload s
  | .keyLock f keyload => Sys2Proof.Machine.execKeyLock f keyload s
  | .unknownRequest f => Sys2Proof.Machine.execUnknownRequest f s
  | .nonvolatileWriteDone => Sys2Proof.Machine.execNonvolatileWriteDone s
  | .warmRestart => Sys2Proof.Machine.execWarmRestart s
  | .restartPeriodExpiry passing => Sys2Proof.Machine.execRestartPeriodExpiry passing s
  | .repeaterModeExit => Sys2Proof.Machine.execRepeaterModeExit s
  | .rstAsserted => Sys2Proof.Machine.execRstAsserted s
  | .coldStart gateNo passing => Sys2Proof.Machine.execColdStart gateNo passing s
  | .gateActionBadValue f keyload => Sys2Proof.Machine.execGateActionBadValue f keyload s
  | .powerLoss => Sys2Proof.Machine.execPowerLoss s

end Sys2Proof.Machine
end

