-- ==== Sys2Proof/Safety.lean ====
section
/-! DEFINITION. What the claims are stated in: the outcome of a command that completes, the items that
only a few commands change, the capacities of tables and queues, and the state that a running part shows
on its leaves and indicators. -/

namespace Sys2Proof.Machine

/-- A step that goes on: neither a fault nor a refusal. -/
def goesOn (o : Host.Outcome State Fault Refusal) : Prop := ∃ t, o = .next t

/-- The items that no transaction, lane event, sighting or grant of the memory port changes. -/
structure Standing where
  pending : List Instr
  power : Power
  emerg : Bool
  keyload : Bool
  clock : Clock
  decoder : Decoder
  ringEngine : Option RingJob
  loader : Option Loading
  keys : Vector KeySlot 8
  setup : Option LineSetup
  gateNo : Nat
  joined : Bool
  watch : Option Nat
  repeater : Bool
  restartPeriod : Option Nat
deriving DecidableEq, Repr

/-- The standing items of a state. -/
def standing (s : State) : Standing :=
  { pending := s.pending, power := s.power, emerg := s.emerg, keyload := s.keyload, clock := s.clock
    decoder := s.decoder, ringEngine := s.ringEngine, loader := s.loader, keys := s.keys
    setup := s.store.setup, gateNo := s.ring.gateNo, joined := s.ring.joined, watch := s.ring.watch
    repeater := s.ring.repeater, restartPeriod := s.ring.restartPeriod }

/-- The capacities that the manual states for the tables and queues (R70, R89, R97, R109, R110, R127, R148,
R152, R153, R191), and that a UID has one tear context and one sighting entry at most (R70, R89); the
displaced sighting of an entry is of its UID. -/
structure Capacities (s : State) : Prop where
  contexts : s.contexts.length ≤ 32
  sightings : s.sightings.length ≤ 2048
  localList : s.hot.localList.length ≤ 256
  grants : s.gate.queue.length + s.gate.reserved ≤ 2
  journal : s.journal.records.length + s.journal.reserved ≤ 1024
  insertion : s.ring.insertion.length + s.ring.intentReserved ≤ 32
  forward : s.ring.forward.length ≤ 4
  sent : s.ring.sent.length ≤ 16
  answers : s.ring.held + s.ring.filled.length ≤ 4
  delta : s.hot.deltaOps.length ≤ 512
  oneContext : (s.contexts.map Context.uid).Nodup
  oneEntry : (s.sightings.map (fun e => e.sighting.uid)).Nodup
  displaced : ∀ e ∈ s.sightings, ∀ d, e.displaced = some d → d.sighting.uid = e.sighting.uid

/-- The leaves and both indicators of a running part follow its state (R142, R143), and the next leaf commands
will be told by it. -/
structure Shows (s : State) : Prop where
  cause : s.gate.leafCause = ⟨gateState s, s.gate.alarm⟩
  leaf : s.gate.leaf = leafOf (gateState s)
  sideA : s.gate.indicator.a = indicatorOf s .a
  sideB : s.gate.indicator.b = indicatorOf s .b

/-- The Ring Interface after a frame that is taken has passed it: a frame for all gates has joined the
forward buffer, when there is room (R151, R153). -/
def ringPassing (f : RingFrame) (r : Ring) : Ring :=
  if frameDest f = 31 ∧ r.forward.length < 4 then { r with forward := r.forward ++ [f] } else r

/-- The Ring Interface with one more answer in the filled order of the answer queue (R152). -/
def ringAnswering (request : Request) (code : AnswerCode) (data : List Byte) (r : Ring) : Ring :=
  { r with
    filled := r.filled ++ [answerFrame r.gateNo (BitVec.ofNat 8 (requestCode request)) code data] }

/-- The Ring Interface with a held place of the answer queue filled with an answer (R152). In a queue whose
other places are all in use, which no run reaches, the answer is not entered (assumption log 37). -/
def ringFilling (request : Request) (code : AnswerCode) (data : List Byte) (r : Ring) : Ring :=
  { r with
    held := r.held - 1
    filled :=
      if r.held - 1 + r.filled.length < 4 then
        r.filled ++ [answerFrame r.gateNo (BitVec.ofNat 8 (requestCode request)) code data]
      else r.filled }

/-- The pass timer when an alarm is raised: a running one is paused (R136). -/
def pausedPass : PassTimer → PassTimer
  | .running left => .paused left
  | t => t

/-- The Gate Controller after an alarm is raised where none stands (R136). -/
def alarmRaised (k : AlarmKind) (g : Gate) : Gate :=
  { g with alarm := some k, passTimer := pausedPass g.passTimer }

/-- The pass timer started with the full pass window of the active parameters (R133, R168). -/
def fullWindow (s : State) : PassTimer :=
  match s.store.params with
  | some p => .running (p.passWindow * 1000)
  | none => s.gate.passTimer

/-- The decoder with no request in hand; a key slot change is left as it is (R199). -/
def decoderIdle (d : Decoder) : Decoder := { d with state := .idle, inHand := none }

/-- The conditions under which a request of a code is judged in the event of its arrival: the part runs,
takes the frame, has a place for the answer and an idle decoder, and the payload has its length (R151,
R152, R198, R199). -/
structure Judged (r : Request) (f : RingFrame) (s : State) : Prop where
  running : s.power = .running
  arrives : requestArrives s r f = true
  place : answerUsed s.ring < 4
  idle : s.decoder.state = .idle
  length : requestLengthGood r f.payload = true

/-- The conditions under which a protected request is accepted uncoded: it is judged, no line key
stands, and KEYLOAD is asserted at its arrival (R187, check 1). -/
structure Uncoded (r : Request) (f : RingFrame) (s : State) : Prop extends Judged r f s where
  noKey : lineKey s = none

/-- The command that the arrival of a request is: for GATE by the action it carries (R141). `keyload` is
the KEYLOAD pin at the arrival of a protected request. -/
def requestCommand (r : Request) (f : RingFrame) (keyload : Bool) : Instr :=
  match r with
  | .describe => .describe f
  | .status => .status f
  | .counters => .counters f
  | .countersClear => .countersClear f keyload
  | .setup => .setup f keyload
  | .gate =>
    match numOf (requestParams f.payload) 1 1 with
    | 1 => .gateFreeOn f keyload
    | 2 => .gateFreeOff f keyload
    | 3 => .gateAlarmRelease f keyload
    | _ => .gateActionBadValue f keyload
  | .restart => .restart f keyload
  | .loadBegin => .loadBegin f keyload
  | .loadData => .loadData f keyload
  | .loadEnd => .loadEnd f keyload
  | .keyWrite => .keyWrite f keyload
  | .keyLock => .keyLock f keyload

/-- The state after a request accepted uncoded has been answered, apart from what its owner does: the
decoder is IDLE and the answer stands in the queue (R152, R199). -/
def uncodedAnswered (r : Request) (code : AnswerCode) (data : List Byte) (f : RingFrame) (s : State) :
    State :=
  { s with
    keyload := true
    ring := ringAnswering r code data (ringPassing f s.ring)
    decoder := decoderIdle s.decoder }

/-- The state while a request accepted uncoded is in hand: the decoder is WORKING, and a place of the
answer queue is held for it (R152, R199). -/
def uncodedInHand (r : Request) (f : RingFrame) (s : State) : State :=
  { s with
    keyload := true
    ring := { ringPassing f s.ring with held := s.ring.held + 1 }
    decoder :=
      { s.decoder with
        state := .working, inHand := some (inHandOf r (frameDest f) f.payload) } }

/-- A transaction that holds no reservation and no context (R25, R70). -/
structure HoldsNothing (s : State) (sd : Side) : Prop where
  grant : (s.taps.get sd).record.holdsGrant = false
  journal : (s.taps.get sd).record.holdsJournal = false
  insertion : (s.taps.get sd).record.holdsInsertion = false
  context : heldContext s sd = none

/-- A refusal has been carried out at a side by an event from `s` to `t` (R36): HALT is asked, STOP is
shown with the category of the code, the refusals counter has advanced, and the record is stored at the
tail, or counted unrecorded when the queue is full. The rest of these items stand. -/
structure Refused (sd : Side) (code : RefusalCode) (s t : State) : Prop where
  halt : (t.chans.get sd).outstanding = some ⟨.halt, 1⟩
  ending : (t.taps.get sd).ending = true
  refusal : (t.taps.get sd).record.refusal = some code
  stop : t.gate.stopTimer = s.gate.stopTimer.set sd (some ⟨2000, categoryOf code⟩)
  counted : t.journal.counters.refusals = advance32 s.journal.counters.refusals
  stored : 1 ≤ journalAvailable s.journal → ∃ r, t.journal.records = s.journal.records ++ [r] ∧
    r.kind = .refused ∧ r.refusal = some code ∧ r.uid = tapUid s sd ∧ r.side = sd ∧
    r.sequence = s.journal.nextSequence ∧ r.lineTime = s.clock.lineTime ∧ r.tcAfter = none ∧
    r.fare = none ∧ r.balanceAfter = none
  unrecorded : journalAvailable s.journal = 0 → t.journal.records = s.journal.records ∧
    t.journal.counters.unrecorded = advance32 s.journal.counters.unrecorded
  others : standing t = standing s ∧ t.taps.get sd.other = s.taps.get sd.other ∧
    t.contexts = s.contexts ∧ t.sightings = s.sightings ∧ t.store = s.store ∧
    t.gate.queue = s.gate.queue ∧ t.gate.reserved = s.gate.reserved ∧ t.draws = s.draws

/-- The clock is well kept: line time is within its range, and reads 0 while unset (R161). -/
structure ClockGood (c : Clock) : Prop where
  range : c.lineTime ≤ maxLineTime
  unset : c.isSet = false → c.lineTime = 0

/-! ### Timers -/

/-- The expiries that are due, in the order of assumption log 2. Entries of the sent list age out once the
oldest has stood 1000 ms (R148). -/
def dueExpiries (s : State) : List Instr :=
  let stop := fun sd =>
    if (s.gate.stopTimer.get sd).map StopTimer.left = some 0 then [Instr.stopTimerExpiry sd] else []
  let side := fun sd =>
    (if (s.chans.get sd).answerTimer = some 0 then [Instr.answerTimerExpiry sd] else []) ++
      (if (s.taps.get sd).hold = some 0 then [.claimHoldExpiry sd] else []) ++
      (if 300 ≤ (s.chans.get sd).fieldEmpty.getD 0 then [.fieldEmptyTimeout sd] else []) ++
      (if (s.chans.get sd).pollTimer = some 0 then [.pollTimerExpiry sd] else [])
  let aged := s.ring.sent.filter (fun e => decide (e.sentAt + 1000 ≤ s.clock.localMs))
  (if s.ring.restartPeriod = some 0 then [.restartPeriodExpiry false] else []) ++
    (if s.ring.watch = some 0 then [.beaconWatchExpiry] else []) ++
    (if 1000 ≤ s.clock.phase then [.lineTimeAdvance] else []) ++
    (if aged.head? = s.ring.sent.head? then aged.map (fun _ => .sentEntryAgeing) else []) ++
    stop .a ++ stop .b ++ (if s.gate.passTimer = .running 0 then [.passTimerExpiry] else []) ++
    side .a ++ side .b

/-! ### Commands of an engaged channel (chapter 1) -/

/-- A channel that has sent a command for the first time, with its window of 5 ms open (R10, R18). -/
def commanded (cmd : AirCommand) (c : Channel) : Channel :=
  { c with outstanding := some ⟨cmd, 1⟩, answerTimer := some 5 }

/-- A channel whose window has closed, with nothing outstanding (R10). -/
def windowClosed (c : Channel) : Channel := { c with outstanding := none, answerTimer := none }

/-- A side whose Tap Controller has asked HALT, which has no window (R13, R46). -/
def haltAsked (sd : Side) (s : State) : State :=
  { s with
    chans := s.chans.set sd
      { s.chans.get sd with outstanding := some ⟨.halt, 1⟩, answerTimer := none }
    taps := s.taps.set sd { s.taps.get sd with ending := true, hold := none } }

/-! ### Journal records -/

/-- The Journal Queue after an unreserved record has been offered: stored at the tail with the next
sequence, or counted unrecorded when no place is available (R192). -/
def recordOffered (r : JournalRecord) (j : Journal) : Journal :=
  if 1 ≤ journalAvailable j then
    { j with
      records := j.records ++ [{ r with sequence := j.nextSequence }]
      nextSequence := (j.nextSequence + 1) % 65536 }
  else { j with counters := { j.counters with unrecorded := advance32 j.counters.unrecorded } }

/-- The Journal Queue after a grant has been withdrawn unused at `s`: its UNUSED record offered, with flag
EMERGENCY when FREE is the cause, and the unused counter advanced (R135). -/
def unusedOffered (s : State) (emergency : Bool) (j : Journal) (g : Grant) : Journal :=
  let offered := recordOffered
    { kind := .unused, sequence := 0, uid := g.uid, cls := g.cls, side := g.side
      station := (s.store.setup.map LineSetup.station).getD 0, gate := s.ring.gateNo
      lineTime := s.clock.lineTime, refusal := none, tcBefore := none, tcAfter := some g.tc
      fare := none, balanceAfter := none, fareVersion := none, hotVersion := none
      flags :=
        { fare := noFareFlags, historyMissed := false, unconfirmed := false, emergency := emergency }
      isOpen := false } j
  { offered with counters := { offered.counters with unused := advance32 offered.counters.unused } }

/-- The record of a context that expires or is discarded (R76), before it has its sequence. -/
def expiryRecord (s : State) (c : Context) : JournalRecord :=
  { kind := .torn, sequence := 0, uid := c.uid, cls := c.cls, side := c.side
    station := (s.store.setup.map LineSetup.station).getD 0, gate := s.ring.gateNo
    lineTime := s.clock.lineTime, refusal := none, tcBefore := some c.baseTc
    tcAfter := if c.confirmed = ⟨false, false⟩ then none else some (c.baseTc + 1)
    fare := none, balanceAfter := none, fareVersion := none, hotVersion := none
    flags := { fare := c.flags, historyMissed := false, unconfirmed := true, emergency := false }
    isOpen := false }

/-- The REFUSED record of a transaction (R36, R190), before it has its sequence. -/
def refusedRecord (sd : Side) (code : RefusalCode) (s : State) : JournalRecord :=
  let r := (s.taps.get sd).record
  { kind := .refused, sequence := 0, uid := tapUid s sd, cls := tapClass s sd, side := sd
    station := (s.store.setup.map LineSetup.station).getD 0, gate := s.ring.gateNo
    lineTime := s.clock.lineTime, refusal := some code, tcBefore := r.cardTc, tcAfter := none
    fare := none, balanceAfter := none, fareVersion := r.fareVersion
    hotVersion := r.hotlist.map HotAnswer.version, flags := refusalFlags r, isOpen := false }

/-! ### Sightings (chapter 5) -/

/-- The Hotlist Store after a UID has been offered to the local hotlist (R113, R174): while a grant is in
use, or behind an offer that waits, the offer waits; at a free port a UID that is on the list or in the
active bank adds nothing, with 256 entries LOCAL_FULL is set, and otherwise it joins the list. -/
def uidOffered (u : Uid) (s : State) : Hotlist :=
  if s.arb.inUse.isSome ∨ s.hot.waiting ≠ [] then { s.hot with waiting := s.hot.waiting ++ [u] }
  else if u ∈ s.hot.localList ∨ ∃ e ∈ activeEntries s.hot, e.uid = u then s.hot
  else if s.hot.localList.length < 256 then { s.hot with localList := s.hot.localList ++ [u] }
  else { s.hot with localFull := true }

/-- The entries that are pinned or within their period (R90). -/
def liveEntries (s : State) (table : List SightEntry) : List SightEntry :=
  table.filter (fun e => e.pin || !outlived s e.sighting)

/-- The state of a sighting: its result TC, and for TORN its base TC (R87). -/
def stateTc (x : Sighting) : Nat := if x.kind = .torn then x.base else x.result

/-- A sighting that meets the entry of its UID, by R93 and R94: the entry after it, and the reason of the
clone action that the rule gives, if it gives one. -/
inductive Meets (x : Sighting) (e : SightEntry) : SightEntry → Option FindingReason → Prop where
  | sameSource : e.sighting.source = x.source → e.pin = false →
    Meets x e ⟨x, e.contested, false, none⟩ none
  | contestWon : e.sighting.source ≠ x.source ∨ e.pin = true → x.kind = .intent →
    e.sighting.kind = .intent → e.sighting.base < x.base →
    Meets x e ⟨x, true, false, none⟩ (some .contest)
  | contestKept : e.sighting.source ≠ x.source ∨ e.pin = true → x.kind = .intent →
    e.sighting.kind = .intent → x.base ≤ e.sighting.base →
    Meets x e { e with contested := true } (some .contest)
  | intentBehind : e.sighting.source ≠ x.source ∨ e.pin = true → x.kind = .intent →
    e.sighting.kind ≠ .intent → x.base < stateTc e.sighting → Meets x e e (some .stateBehind)
  | intentAhead : e.sighting.source ≠ x.source ∨ e.pin = true → x.kind = .intent →
    e.sighting.kind ≠ .intent → stateTc e.sighting ≤ x.base →
    Meets x e ⟨x, e.contested, false, none⟩ none
  | stateBehind : e.sighting.source ≠ x.source ∨ e.pin = true → x.kind ≠ .intent →
    x.result < e.sighting.result → Meets x e e none
  | stateAhead : e.sighting.source ≠ x.source ∨ e.pin = true → x.kind ≠ .intent →
    e.sighting.result ≤ x.result →
    ¬ (x.kind = .commit ∧ x.base = x.result ∧ e.sighting.kind = .commit ∧
      e.sighting.base = e.sighting.result ∧ e.sighting.source ≠ x.source ∧
      e.sighting.result = x.result) →
    Meets x e ⟨x, e.contested, false, none⟩ none
  | doubleReuse : x.kind = .commit → x.base = x.result → e.sighting.kind = .commit →
    e.sighting.base = e.sighting.result → e.sighting.source ≠ x.source →
    e.sighting.result = x.result → Meets x e ⟨x, e.contested, false, none⟩ (some .doubleReuse)

/-- An own COMMIT, TORN or UNUSED that meets the entry of its UID (R96): a COMMIT or TORN takes the place of
the pinned INTENT of its transaction, and any other meets it as an arrival would. -/
inductive MeetsOwn (x : Sighting) (e : SightEntry) : SightEntry → Option FindingReason → Prop where
  | intent : e.pin = true → e.sighting.kind = .intent → e.sighting.source = x.source →
    x.kind ≠ .unused → MeetsOwn x e ⟨x, e.contested, false, none⟩ none
  | other : ∀ e' reason,
    ¬ (e.pin = true ∧ e.sighting.kind = .intent ∧ e.sighting.source = x.source ∧
      x.kind ≠ .unused) →
    Meets x e e' reason → MeetsOwn x e e' reason

/-- The Sighting Table after a sighting: a new entry where none stands for its UID, in the place of the
unpinned entry of the oldest line time when the table is full (R91, R92), and else the entry changed by a
rule, with the reason of its clone action. A table full of pinned entries, which no run reaches, stays as it
is (assumption log 37). -/
inductive TableTakes (rule : SightEntry → SightEntry → Option FindingReason → Prop) (x : Sighting)
    (table : List SightEntry) : List SightEntry → Option FindingReason → Prop where
  | new : (∀ e ∈ table, e.sighting.uid ≠ x.uid) → table.length < 2048 →
    TableTakes rule x table (table ++ [⟨x, false, false, none⟩]) none
  | evicted (before : List SightEntry) (o : SightEntry) (after : List SightEntry) :
    (∀ e ∈ table, e.sighting.uid ≠ x.uid) → 2048 ≤ table.length → table = before ++ o :: after →
    o.pin = false → (∀ y ∈ before, y.pin = false → o.sighting.time < y.sighting.time) →
    (∀ y ∈ after, y.pin = false → o.sighting.time ≤ y.sighting.time) →
    TableTakes rule x table (before ++ after ++ [⟨x, false, false, none⟩]) none
  | pinned : (∀ e ∈ table, e.sighting.uid ≠ x.uid) → 2048 ≤ table.length →
    (∀ e ∈ table, e.pin = true) → TableTakes rule x table table none
  | standing (e e' : SightEntry) (reason : Option FindingReason) :
    table.find? (fun y => y.sighting.uid = x.uid) = some e → rule e e' reason →
    TableTakes rule x table (table.map (fun y => if y.sighting.uid = x.uid then e' else y)) reason

/-- The insertion queue after a non-INTENT frame has asked to join it (R97, item 3). -/
inductive Joins (m : LineMsg) (r : Ring) : List LineMsg → Prop where
  | free : insertionUsed r < 32 → Joins m r (r.insertion ++ [m])
  | displaced (before : List LineMsg) (o : LineMsg) (after : List LineMsg) :
    32 ≤ insertionUsed r → r.insertion = before ++ o :: after →
    (∀ y ∈ before, isIntentMsg y = true) → isIntentMsg o = false →
    Joins m r (before ++ after ++ [m])
  | dropped : 32 ≤ insertionUsed r → (∀ y ∈ r.insertion, isIntentMsg y = true) →
    Joins m r r.insertion

/-- The insertion queue after the INTENT of a transaction has been withdrawn: its frame is gone when it is
still queued (R39, R97, item 4). -/
inductive IntentLeaves (queue : List LineMsg) : Option Sighting → List LineMsg → Prop where
  | none : IntentLeaves queue none queue
  | sent (x : Sighting) : .sighting x ∉ queue → IntentLeaves queue (some x) queue
  | queued (x : Sighting) (before after : List LineMsg) :
    queue = before ++ .sighting x :: after → .sighting x ∉ after →
    IntentLeaves queue (some x) (before ++ after)

/-- The Sighting Table after the INTENT of a transaction has been withdrawn: where it still stands pinned,
the entry takes the sighting given, or, with none given, its displaced sighting with the flag that had
(assumption log 52), or goes (R95). -/
def tableSetBack (s : State) (sd : Side) (given : Option Displaced) : List SightEntry :=
  let u := tapUid s sd
  liveEntries s
    (match s.sightings.find? (fun e => e.sighting.uid = u) with
    | none => s.sightings
    | some e =>
      if ownPinned s sd e = true then
        match given.or e.displaced with
        | some d =>
          s.sightings.map
            (fun y => if y.sighting.uid = u then ⟨d.sighting, d.contested, false, none⟩ else y)
        | none => s.sightings.filter (fun y => y.sighting.uid ≠ u)
      else s.sightings)

/-- The CLONE notice of a transaction (R102); for a double reuse its reason is a free value (assumption log
8). -/
def cloneNotice (sd : Side) (reason : FindingReason) (s : State) : LineMsg :=
  .notice
    { uid := tapUid s sd, tc := checkedTc s sd, reason := noticeReason reason
      source := ⟨s.ring.gateNo, sd⟩ }

/-- The state after a side has given back the context that it holds, which expires with its TORN record
when its overdue mark is set (R76, R82). -/
def contextBack (sd : Side) (s : State) : State :=
  match heldContext s sd with
  | none => s
  | some c =>
    if c.overdue = true then
      { s with
        contexts := s.contexts.filter (fun x => x.uid ≠ c.uid)
        journal := recordOffered (expiryRecord s c) s.journal }
    else
      { s with contexts := s.contexts.map (fun x => if x.uid = c.uid then { x with holder := none } else x) }

/-- The state after a transaction has given back the reservations that it holds (R35). -/
def reservationsBack (sd : Side) (s : State) : State :=
  let r := (s.taps.get sd).record
  { s with
    taps := s.taps.set sd
      { s.taps.get sd with
        record := { r with holdsGrant := false, holdsJournal := false, holdsInsertion := false } }
    gate := if r.holdsGrant then { s.gate with reserved := s.gate.reserved - 1 } else s.gate
    journal := if r.holdsJournal then { s.journal with reserved := s.journal.reserved - 1 } else s.journal
    ring :=
      if r.holdsInsertion then { s.ring with intentReserved := s.ring.intentReserved - 1 } else s.ring }

/-- The state after the refusal sequence of CLONE_SUSPECT, but for a held context (R36): STOP shown, the
record offered, both counters advanced, and HALT asked. -/
def cloneSuspect (sd : Side) (s : State) : State :=
  let offered := recordOffered (refusedRecord sd .cloneSuspect s) s.journal
  { s with
    chans := s.chans.set sd
      { s.chans.get sd with outstanding := some ⟨.halt, 1⟩, answerTimer := none }
    taps := s.taps.set sd
      { s.taps.get sd with
        ending := true, hold := none
        record := { (s.taps.get sd).record with refusal := some .cloneSuspect } }
    gate :=
      { s.gate with
        stopTimer := s.gate.stopTimer.set sd (some ⟨2000, categoryOf .cloneSuspect⟩) }
    journal :=
      { offered with
        counters :=
          { offered.counters with
            refusals := advance32 offered.counters.refusals
            cloneRefusals := advance32 offered.counters.cloneRefusals } } }

/-- A finding in CLAIMING refuses a transaction, from `v` to `u` (R39): the INTENT withdrawn from the queue
and from the table, whose entry takes the finding's sighting `d`, the reservations given back, the UID
offered, the notice joined, the refusal sequence, and the context given back, its TORN record, if any,
behind that of the refusal (assumption log 41). -/
def CloneRefused (sd : Side) (reason : FindingReason) (d : Displaced) (v u : State) : Prop :=
  let back := reservationsBack sd v
  ∃ left joined,
    IntentLeaves v.ring.insertion (v.taps.get sd).record.intent left ∧
    Joins (cloneNotice sd reason v) { back.ring with insertion := left } joined ∧
    u = contextBack sd
      (cloneSuspect sd
        { back with
          sightings := tableSetBack v sd (some d)
          ring := { back.ring with insertion := joined }
          hot := uidOffered (tapUid v sd) v })

/-- A Tap Controller with a clone mark set by a finding; a first reason stays (R42, R100). -/
def marked (reason : FindingReason) (t : Tap) : Tap :=
  { t with record := { t.record with cloneMark := t.record.cloneMark.or (some reason) } }

/-- What a transaction finds against a sighting: by the clone check, and else by the rule that took the
sighting into the table (R99, item 2). -/
def findingAgainst (s : State) (sd : Side) (x : Sighting) (rule : Option FindingReason) :
    Option FindingReason :=
  (cloneCheck (checkedTc s sd) ⟨s.ring.gateNo, sd⟩ x).or rule

/-- A sighting judged against the transaction of a side, from `v` to `u` (R99, R100): where that is in flight
for the UID, which one that has asked HALT is not (assumption log 50), a finding refuses it in CLAIMING, the
entry contested when the sighting is an INTENT, and marks it in WRITING and CONFIRMING. -/
def SideJudged (sd : Side) (x : Sighting) (rule : Option FindingReason) (v u : State) : Prop :=
  match inFlight v sd x.uid, findingAgainst v sd x rule with
  | true, some reason =>
    if (v.taps.get sd).state = .claiming then
      CloneRefused sd reason ⟨x, decide (x.kind = .intent)⟩ v u
    else u = { v with taps := v.taps.set sd (marked reason (v.taps.get sd)) }
  | _, _ => u = v

/-- The state after a rule's clone action, if it gave one, as a bystander's: with no transaction of this
gate in flight for the UID, it is offered to the local hotlist (R101). -/
def bystanding (x : Sighting) (rule : Option FindingReason) (s : State) : State :=
  if rule ≠ none ∧ inFlight s .a x.uid = false ∧ inFlight s .b x.uid = false then
    { s with hot := uidOffered x.uid s }
  else s

/-- An own COMMIT, TORN or UNUSED of a side, from `v` to `u` (R96, R97, R99 to R101): it is taken into the
table, joins the insertion queue, and is judged against the transaction of the other side. -/
def OwnTaken (sd : Side) (x : Sighting) (v u : State) : Prop :=
  ∃ table rule queue,
    TableTakes (MeetsOwn x) x (liveEntries v v.sightings) table rule ∧
    Joins (.sighting x) v.ring queue ∧
    SideJudged sd.other x rule
      (bystanding x rule
        { v with sightings := table, ring := { v.ring with insertion := queue } }) u

/-- The clone mark of a side's transaction, if it has one, taken up from `v` to `u`: the UID offered, and the
notice joined (R42, R101, R102). -/
def MarkTaken (sd : Side) (v u : State) : Prop :=
  match (v.taps.get sd).record.cloneMark with
  | none => u = v
  | some reason =>
    ∃ queue, Joins (cloneNotice sd reason v) v.ring queue ∧
      u = { v with hot := uidOffered (tapUid v sd) v, ring := { v.ring with insertion := queue } }

/-! ### The lane shut (chapter 7) -/

/-- Grants withdrawn unused, the head's first, from `v` to `u` (R135): each with its UNUSED record, which has
flag EMERGENCY when FREE is the cause, and its UNUSED sighting. -/
inductive GrantsWithdrawn (emergency : Bool) : State → List Grant → State → Prop where
  | none (v : State) : GrantsWithdrawn emergency v [] v
  | next (v : State) (g : Grant) (rest : List Grant) (w u : State) :
    OwnTaken g.side (makeSighting v g.side g.uid .unused g.tc g.tc)
      { v with journal := unusedOffered v emergency v.journal g } w →
    GrantsWithdrawn emergency w rest u → GrantsWithdrawn emergency v (g :: rest) u

/-- The gate is in OUT_OF_SERVICE or FREE, where no grant stands (R126, R139). -/
def laneShut (m : State) : Prop := gateState m = .outOfService ∨ gateState m = .free

/-- A lane in OUT_OF_SERVICE or FREE shut with its grants withdrawn, from `v` to `u` (R126, R139): the pass
timer stopped and every alarm but FORCED cleared. -/
def LaneEmptied (v : State) (grants : List Grant) (u : State) : Prop :=
  ∃ w,
    GrantsWithdrawn (decide (gateState v = .free)) { v with gate := { v.gate with queue := [] } } grants
      w ∧
    u =
      { w with
        gate :=
          { w.gate with
            alarm := if w.gate.alarm = some .forced then some .forced else none
            passTimer := .stopped } }

/-! ### Torn taps (chapter 4) -/

/-- A command that tears the transaction of a side (R46, R47): the second failure of a command in WRITING
or CONFIRMING, after which the lost mark stands, or the second mismatch of one journey block on its
read-back, which leaves the lost mark as it is (assumption log 42). -/
inductive Tears (sd : Side) (s : State) : Instr → Bool → Prop where
  | failed (cmd : AirCommand) (c : Instr) :
    (s.taps.get sd).state = .writing ∨ (s.taps.get sd).state = .confirming → cmd ≠ .halt →
    (s.chans.get sd).outstanding = some ⟨cmd, 2⟩ →
    c = .answerTimerExpiry sd ∨ c = .airAnswerArrival sd .badFrame ∨
      c = .airAnswerArrival sd (.good .nak) →
    Tears sd s c true
  | mismatched (n : Nat) (first : Bool) (bytes : List Byte) :
    (s.taps.get sd).state = .confirming →
    (s.chans.get sd).outstanding =
      some ⟨.read (if first then firstBlock s sd else secondBlock s sd), n⟩ →
    (if first then (s.taps.get sd).record.rewritten.first
      else (s.taps.get sd).record.rewritten.second) = true →
    bytes.length = 16 →
    bytes ≠ composedBlock s sd (if first then firstBlock s sd else secondBlock s sd) →
    Tears sd s (.airAnswerArrival sd (.good (.data bytes))) (s.chans.get sd).lost

/-- The context of a transaction torn now (R71). -/
def newContext (s : State) (sd : Side) (d : Decision) (target : SlotId) (image : List Byte) : Context :=
  { uid := tapUid s sd, side := sd, cls := tapClass s sd, baseTc := d.baseTc, target := target
    journeyImage := image, historyImage := (s.taps.get sd).record.historyImage
    confirmed := (s.taps.get sd).record.confirmed, fare := d.fare, balanceAfter := d.balanceAfter
    flags := d.flags, created := s.clock.lineTime, deadline := s.clock.lineTime + 20
    holder := none, overdue := false }

/-- The Recovery Table and the Journal Queue after the hand-off of a tear, with the base TC of its TORN
sighting. With no context held: a context of the UID expires first with its TORN record (R72), a full
table gives up the unheld context of the earliest deadline, the one created first on equal deadlines, and
the new one joins the table (R71). A held context keeps its deadline, and expires when its overdue mark is
set (R73). -/
inductive TearContexts (sd : Side) (s : State) (d : Decision) (target : SlotId) (image : List Byte) :
    Nat → List Context → Journal → Prop where
  | replaced (old : Context) : heldContext s sd = none → contextOf s (tapUid s sd) = some old →
    TearContexts sd s d target image d.baseTc
      (s.contexts.filter (fun c => c.uid ≠ tapUid s sd) ++ [newContext s sd d target image])
      (recordOffered (expiryRecord s old) s.journal)
  | added : heldContext s sd = none → contextOf s (tapUid s sd) = none → s.contexts.length < 32 →
    TearContexts sd s d target image d.baseTc
      (s.contexts ++ [newContext s sd d target image]) s.journal
  | full (before : List Context) (c : Context) (after : List Context) :
    heldContext s sd = none → contextOf s (tapUid s sd) = none → s.contexts = before ++ c :: after →
    s.contexts.length = 32 → c.holder = none →
    (∀ x ∈ before, x.uid ≠ c.uid ∧ (x.holder = none → c.deadline < x.deadline)) →
    (∀ x ∈ after, x.uid ≠ c.uid ∧ (x.holder = none → c.deadline ≤ x.deadline)) →
    TearContexts sd s d target image d.baseTc
      (before ++ after ++ [newContext s sd d target image])
      (recordOffered (expiryRecord s c) s.journal)
  | updated (c : Context) : heldContext s sd = some c → c.uid = tapUid s sd → c.side = sd →
    c.overdue = false →
    TearContexts sd s d target image c.baseTc
      (s.contexts.map (fun x =>
        if x.uid = tapUid s sd then
          { c with confirmed := (s.taps.get sd).record.confirmed, holder := none }
        else x))
      s.journal
  | overdue (c : Context) : heldContext s sd = some c → c.uid = tapUid s sd → c.side = sd →
    c.overdue = true →
    TearContexts sd s d target image c.baseTc (s.contexts.filter (fun x => x.uid ≠ tapUid s sd))
      (recordOffered
        (expiryRecord s { c with confirmed := (s.taps.get sd).record.confirmed, holder := none })
        s.journal)

/-- The TORN sighting of a tear, made now (R74). -/
def tornNow (sd : Side) (base : Nat) (s : State) : Sighting :=
  { uid := tapUid s sd, kind := .torn, base := base, result := base + 1
    source := ⟨s.ring.gateNo, sd⟩, side := sd, time := s.clock.lineTime }

/-- The hand-off of a tear, from `s` with the Recovery Table and the Journal Queue that it leaves, to `w`
(R42, R46, R74): the TORN sighting taken as an own one, the reservations given back, and the clone mark
taken up. The order is that of assumption log 16. -/
def HandedOff (sd : Side) (base : Nat) (contexts : List Context) (journal : Journal) (s w : State) : Prop :=
  ∃ v, OwnTaken sd (tornNow sd base s) { s with contexts := contexts, journal := journal } v ∧
    MarkTaken sd (reservationsBack sd v) w

/-- The state after a tear that has been handed off: STOP with TAP_AGAIN, and HALT asked (R46, R47). -/
def tornState (sd : Side) (w : State) : State :=
  { haltAsked sd w with
    gate := { w.gate with stopTimer := w.gate.stopTimer.set sd (some ⟨2000, .tapAgain⟩) } }

/-! ### The decision order (chapter 2) -/

/-- The slot that leads the choice of R6: one that is code-verified, alone or with the higher TC, slot A on
equal ones. -/
def Leads (r : TapRecord) (l : SlotId) : Prop :=
  slotCoded (recordClass r l) = true ∧
    (slotCoded (recordClass r (otherSlot l)) = true →
      slotTc r (otherSlot l) < slotTc r l ∨ (slotTc r (otherSlot l) = slotTc r l ∧ l = .a))

/-- The insertion queue that gives an INTENT its place (R97): as it stands while a place is free, and
without its first frame that is not an INTENT when it is full. -/
inductive IntentPlace (r : Ring) : List LineMsg → Prop where
  | free : insertionUsed r < 32 → IntentPlace r r.insertion
  | displaced (before : List LineMsg) (m : LineMsg) (after : List LineMsg) :
    32 ≤ insertionUsed r → r.insertion = before ++ m :: after →
    (∀ x ∈ before, isIntentMsg x = true) → isIntentMsg m = false →
    IntentPlace r (before ++ after)

/-- The Sighting Table with a new own INTENT (R91, R95): a new entry, when the table is full in the place
of the unpinned entry of the oldest line time, or the standing entry, whose sighting is displaced; every
new one is pinned. -/
inductive IntentTable (x : Sighting) (table : List SightEntry) : List SightEntry → Prop where
  | new : (∀ e ∈ table, e.sighting.uid ≠ x.uid) → table.length < 2048 →
    IntentTable x table (table ++ [⟨x, false, true, none⟩])
  | evicted (before : List SightEntry) (o : SightEntry) (after : List SightEntry) :
    (∀ e ∈ table, e.sighting.uid ≠ x.uid) → 2048 ≤ table.length → table = before ++ o :: after →
    o.pin = false → (∀ y ∈ before, y.pin = false → o.sighting.time < y.sighting.time) →
    (∀ y ∈ after, y.pin = false → o.sighting.time ≤ y.sighting.time) →
    IntentTable x table (before ++ after ++ [⟨x, false, true, none⟩])
  | standing : (∃ e ∈ table, e.sighting.uid = x.uid) →
    IntentTable x table
      (table.map (fun e =>
        if e.sighting.uid = x.uid then ⟨x, false, true, some ⟨e.sighting, e.contested⟩⟩ else e))

/-- The own INTENT of a transaction for its checked TC, made now (R88, R95). -/
def ownIntent (sd : Side) (tc : Nat) (s : State) : Sighting :=
  { uid := tapUid s sd, kind := .intent, base := tc, result := tc + 1
    source := ⟨s.ring.gateNo, sd⟩, side := sd, time := s.clock.lineTime }

/-- The state after check 11 has passed with an insertion entry: the grant slot and the journal record are
reserved, and the transaction is in CLAIMING with its hold of 20 ms, its INTENT pinned in the table and at
the tail of the insertion queue (R35, R38, R95). -/
def claimingState (sd : Side) (d : Decision) (queue : List LineMsg) (table : List SightEntry)
    (contexts : List Context) (m : State) : State :=
  let x := ownIntent sd d.baseTc m
  { m with
    taps := m.taps.set sd
      { m.taps.get sd with
        state := .claiming, hold := some 20
        record := { (m.taps.get sd).record with
          holdsGrant := true, holdsJournal := true, intent := some x } }
    contexts := contexts
    sightings := table
    ring := { m.ring with insertion := queue ++ [.sighting x] }
    gate := { m.gate with reserved := m.gate.reserved + 1 }
    journal := { m.journal with reserved := m.journal.reserved + 1 } }

/-- The record of a commit made at `m` (R43, R190, R193). -/
def acceptRecord (sd : Side) (d : Decision) (m : State) : JournalRecord :=
  let r := (m.taps.get sd).record
  { kind :=
      match d.accept with
      | .entry => .entry
      | .exit => .exit
      | .reuse => .reuse
      | .recovered => .recovered
    sequence := m.journal.nextSequence, uid := tapUid m sd, cls := tapClass m sd, side := sd
    station := (m.store.setup.map LineSetup.station).getD 0, gate := m.ring.gateNo
    lineTime := m.clock.lineTime, refusal := none, tcBefore := some d.baseTc
    tcAfter := some d.resultTc, fare := if d.accept = .reuse then none else some d.fare
    balanceAfter := some d.balanceAfter
    fareVersion := if d.accept = .recovered then none else r.fareVersion
    hotVersion := r.hotlist.map HotAnswer.version
    flags := { fare := d.flags, historyMissed := false, unconfirmed := false, emergency := false }
    isOpen := decide (sd = .b ∧ (d.accept = .exit ∨ d.accept = .recovered)) }

/-- The counters after a commit (R195). -/
def acceptCounters (d : Decision) (c : Counters) : Counters :=
  { c with
    entries := if d.accept = .entry then advance32 c.entries else c.entries
    exits := if d.accept = .exit then advance32 c.exits else c.exits
    reuses := if d.accept = .reuse then advance32 c.reuses else c.reuses
    recoveries := if d.accept = .recovered then advance32 c.recoveries else c.recoveries
    fareTotal :=
      if d.accept = .reuse then c.fareTotal else (c.fareTotal + d.fare) % 18446744073709551616 }

/-- The grant of a commit (R43, R127). -/
def acceptGrant (sd : Side) (d : Decision) (m : State) : Grant :=
  { side := sd, uid := tapUid m sd, cls := tapClass m sd, tc := d.resultTc, entered := false }

/-- What follows a commit (R44, R45): FINISHING with the history write of an exit, and else HALT. -/
def afterAccept (sd : Side) (d : Decision) (s : State) : State :=
  if sd = .b ∧ (d.accept = .exit ∨ d.accept = .recovered) then
    { s with
      chans := s.chans.set sd
        (commanded (.write (5 + d.resultTc % 3) ((s.taps.get sd).record.historyImage.getD []))
          (s.chans.get sd))
      taps := s.taps.set sd { s.taps.get sd with state := .finishing } }
  else haltAsked sd s

/-- What every commit does, from `m`, where the transaction holds its grant slot and its journal place, to
`u`, apart from the end of the event (R42 to R45, R129). The hand-offs stand in the order of assumption log
16. The reservation becomes the record; the COMMIT is taken as an own sighting; the grant slot becomes a
grant at the tail of the queue, starting the pass timer of a CLOSED gate alone, and in OUT_OF_SERVICE and
FREE it is withdrawn unused at once; the clone mark is taken up; and HALT follows, or FINISHING. -/
def Committed (sd : Side) (d : Decision) (contexts : List Context) (m u : State) : Prop :=
  let tap := m.taps.get sd
  let stored : State :=
    { m with
      taps := m.taps.set sd
        { tap with record := { tap.record with holdsGrant := false, holdsJournal := false } }
      contexts := contexts
      journal :=
        { records := m.journal.records ++ [acceptRecord sd d m]
          reserved := m.journal.reserved - 1
          nextSequence := (m.journal.nextSequence + 1) % 65536
          counters := acceptCounters d m.journal.counters } }
  ∃ v w z,
    OwnTaken sd (makeSighting m sd (tapUid m sd) .commit d.baseTc d.resultTc) stored v ∧
    (¬ laneShut v →
      w =
        { v with
          gate :=
            { v.gate with
              reserved := v.gate.reserved - 1
              queue := v.gate.queue ++ [acceptGrant sd d m]
              passTimer := if gateState v = .closed then fullWindow v else v.gate.passTimer } }) ∧
    (laneShut v →
      LaneEmptied { v with gate := { v.gate with reserved := v.gate.reserved - 1 } }
        (v.gate.queue ++ [acceptGrant sd d m]) w) ∧
    MarkTaken sd w z ∧ u = afterAccept sd d z

/-- Check 11 refuses from `m` (R35): GATE_BUSY with no grant slot, then JOURNAL_FULL with 32 places or
fewer available. The reservation taken first is given back. -/
structure ReservesOrRefuses (sd : Side) (m : State) (o : Host.Outcome State Fault Refusal) : Prop where
  gateBusy : 2 ≤ m.gate.reserved + m.gate.queue.length →
    ∃ t, o = .next t ∧ Refused sd .gateBusy m t
  journalFull : m.gate.reserved + m.gate.queue.length < 2 → journalAvailable m.journal ≤ 32 →
    ∃ t, o = .next t ∧ Refused sd .journalFull m t

/-- The finding of a new INTENT for the card TC `t` at its CLAIMING entry, with the sighting that the entry
takes at a withdrawal: CONTEST against the pinned INTENT of the other side, and else what the clone check
finds against the entry that stood (R95, R98, R99). -/
def entryFinding (sd : Side) (t : Nat) (m : State) : Option (FindingReason × Displaced) :=
  match (liveEntries m m.sightings).find? (fun e => e.sighting.uid = tapUid m sd) with
  | none => none
  | some e =>
    let d : Displaced := ⟨e.sighting, e.contested || decide (e.sighting.kind = .intent)⟩
    if ownPinned m sd.other e = true then some (.contest, d)
    else (claimCheck t ⟨m.ring.gateNo, sd⟩ ⟨e.sighting, e.contested⟩).map (fun reason => (reason, d))

/-- The Sighting Table after CLAIMING entry: as it stood where the pinned INTENT of the other side holds the
entry, and else with the new INTENT (R95, items 2 and 3). -/
def IntentEnters (sd : Side) (t : Nat) (m : State) (table : List SightEntry) : Prop :=
  let live := liveEntries m m.sightings
  let stands :=
    ∃ e, live.find? (fun e => e.sighting.uid = tapUid m sd) = some e ∧
      ownPinned m sd.other e = true
  (stands → table = live) ∧ (¬ stands → IntentTable (ownIntent sd t m) live table)

/-- Check 11 of an accept that needs an insertion entry, from `m` (R35, R38, R39, R95, R99): LINE_BUSY when
all 32 places hold INTENT frames, else CLAIMING. In the same event a transaction of the other side for the
UID is judged first (assumption log 21): refused CLONE_SUSPECT in CLAIMING, its entry taking the new INTENT
(assumption log 51), and marked CONTEST in WRITING and CONFIRMING; then the new one is refused CLONE_SUSPECT
on a finding. -/
structure Claims (sd : Side) (d : Decision) (contexts : List Context) (m : State)
    (o : Host.Outcome State Fault Refusal) : Prop extends ReservesOrRefuses sd m o where
  lineBusy : m.gate.reserved + m.gate.queue.length < 2 → 32 < journalAvailable m.journal →
    32 ≤ insertionUsed m.ring → (∀ x ∈ m.ring.insertion, isIntentMsg x = true) →
    ∃ t, o = .next t ∧ Refused sd .lineBusy m t
  claims : ∀ queue table, m.gate.reserved + m.gate.queue.length < 2 →
    32 < journalAvailable m.journal → IntentPlace m.ring queue →
    IntentEnters sd d.baseTc m table →
    ∃ v u, o = .next (settle u) ∧
      SideJudged sd.other (ownIntent sd d.baseTc m) (some .contest)
        (claimingState sd d queue table contexts m) v ∧
      (entryFinding sd d.baseTc m = none → u = v) ∧
      (∀ reason d', entryFinding sd d.baseTc m = some (reason, d') → CloneRefused sd reason d' v u)

/-- The state after check 11 has reserved a grant slot and a journal place (R35). -/
def bothReserved (sd : Side) (m : State) : State :=
  let tap := m.taps.get sd
  { m with
    taps := m.taps.set sd
      { tap with record := { tap.record with holdsGrant := true, holdsJournal := true } }
    gate := { m.gate with reserved := m.gate.reserved + 1 }
    journal := { m.journal with reserved := m.journal.reserved + 1 } }

/-- Check 11 of an accept without an insertion entry, from `m`: the commit follows at once (R35, R43). -/
structure Commits (sd : Side) (d : Decision) (contexts : List Context) (m : State)
    (o : Host.Outcome State Fault Refusal) : Prop extends ReservesOrRefuses sd m o where
  commits : m.gate.reserved + m.gate.queue.length < 2 → 32 < journalAvailable m.journal →
    (m.chans.get sd).lost = false →
    ∃ u, o = .next (settle u) ∧ Committed sd d contexts (bothReserved sd m) u

/-! ### Line time -/

/-- What becomes of a bank when the other is activated (R168; the contents of an EMPTY bank, assumption log
57). -/
def bankRetired (b : Bank) : Bank :=
  if b.state ≠ .active then b
  else if 0 < b.refs then { b with state := .draining }
  else Bank.cold

/-- Line time moves from `s` to the clock of `t` (R75, R76, R90, R168): a PENDING fare bank that this makes
due becomes ACTIVE, and the bank that was ACTIVE drains, or empties when no transaction references it; a
tear context whose deadline is reached expires with its TORN record when no transaction holds it, the
earlier deadline first and the one created first on equal ones, and gets its overdue mark when one does;
sightings past their period are gone. -/
structure LineTimeMoved (s t : State) : Prop where
  notPending : bankIn s.store .pending = none → t.store = s.store
  notDue : ∀ id, bankIn s.store .pending = some id →
    t.clock.lineTime / 60 < (bankOf s.store id).activation → t.store = s.store
  activated : ∀ id, bankIn s.store .pending = some id →
    (bankOf s.store id).activation ≤ t.clock.lineTime / 60 →
    bankOf t.store id = { bankOf s.store id with state := .active } ∧
    t.store.params.map ActiveParams.version = some (bankOf s.store id).version ∧
    bankOf t.store (otherBank id) = bankRetired (bankOf s.store (otherBank id))
  contexts : (s.contexts.map Context.uid).Nodup →
    t.contexts =
      (s.contexts.filter
          (fun c => !(decide (c.deadline ≤ t.clock.lineTime) && c.holder.isNone))).map
        (fun c => if c.deadline ≤ t.clock.lineTime then { c with overdue := true } else c)
  journal :
    let gone :=
      s.contexts.filter (fun c => decide (c.deadline ≤ t.clock.lineTime) && c.holder.isNone)
    let expired := fun c => recordOffered (expiryRecord { s with clock := t.clock } c)
    (gone = [] → t.journal = s.journal) ∧
    (∀ c, gone = [c] → t.journal = expired c s.journal) ∧
    (∀ c₁ c₂, gone = [c₁, c₂] →
      t.journal =
        if c₂.deadline < c₁.deadline then expired c₁ (expired c₂ s.journal)
        else expired c₂ (expired c₁ s.journal))
  sightings : t.sightings = liveEntries t s.sightings
  setup : t.store.setup = s.store.setup

/-! ### Warm restart -/

/-- The Table Store after a transaction has given back its reference to a fare bank, if it holds one (R46,
R166): a DRAINING bank that none references is EMPTY. -/
def bankBack (sd : Side) (s : State) : TableStore :=
  match (s.taps.get sd).record.bank with
  | none => s.store
  | some id =>
    let b := bankOf s.store id
    setBank id
      (if b.state = .draining ∧ b.refs - 1 = 0 then Bank.cold else { b with refs := b.refs - 1 }) s.store

/-- A Tap Controller after a warm restart has ended its transaction: IDLE, its bank reference given back, and
its code engine idle (R48, R184). -/
def tapEnded (sd : Side) (s : State) : State :=
  { s with
    taps := s.taps.set sd Tap.cold, store := bankBack sd s, engines := s.engines.set sd none }

/-- The state after a warm restart has abandoned the transaction of a side with a Sighting Table and an
insertion queue (R48): the reservations given back, the record of CARD_LOST offered, the refusal counted,
and the context given back. -/
def abandonedState (sd : Side) (table : List SightEntry) (queue : List LineMsg) (s : State) : State :=
  let back := reservationsBack sd s
  let offered := recordOffered (refusedRecord sd .cardLost s) back.journal
  tapEnded sd
    (contextBack sd
      { back with
        sightings := table
        ring := { back.ring with insertion := queue }
        journal :=
          { offered with
            counters := { offered.counters with refusals := advance32 offered.counters.refusals } } })

/-- A warm restart ends the transaction of a side, by its state, from `s` to the state given (R48, R86,
R107). -/
inductive Restarts (sd : Side) (s : State) : State → Prop where
  | ended :
    (s.taps.get sd).ending = true ∨ (s.taps.get sd).state = .idle ∨
      ((s.taps.get sd).state = .finishing ∧ (s.taps.get sd).record.refusal ≠ none) →
    Restarts sd s (tapEnded sd s)
  | abandoned : (s.taps.get sd).ending = false →
    (s.taps.get sd).state ∈
      [TapState.selecting, .identifying, .authenticating, .reading, .deciding] →
    Restarts sd s (abandonedState sd s.sightings s.ring.insertion s)
  | claiming (queue : List LineMsg) : (s.taps.get sd).ending = false →
    (s.taps.get sd).state = .claiming →
    IntentLeaves s.ring.insertion (s.taps.get sd).record.intent queue →
    Restarts sd s (abandonedState sd (tableSetBack s sd none) queue s)
  | torn (d : Decision) (target : SlotId) (image : List Byte) (base : Nat) (contexts : List Context)
    (journal : Journal) (w : State) :
    (s.taps.get sd).ending = false → (s.taps.get sd).state ∈ [TapState.writing, .confirming] →
    (s.taps.get sd).record.decision = some d → (s.taps.get sd).record.target = some target →
    (s.taps.get sd).record.journeyImage = some image →
    (s.taps.get sd).record.holdsInsertion = false → s.contexts.length ≤ 32 →
    TearContexts sd s d target image base contexts journal →
    HandedOff sd base contexts journal s w → Restarts sd s (tapEnded sd w)
  | finished (before : List JournalRecord) (r : JournalRecord) (after : List JournalRecord) :
    (s.taps.get sd).ending = false → (s.taps.get sd).state = .finishing →
    (s.taps.get sd).record.refusal = none → s.journal.records = before ++ r :: after →
    r.isOpen = true → r.side = sd → (∀ x ∈ before, ¬ (x.isOpen = true ∧ x.side = sd)) →
    Restarts sd s
      (tapEnded sd
        { s with
          journal :=
            { s.journal with
              records :=
                before ++
                  { r with isOpen := false, flags := { r.flags with historyMissed := true } } ::
                    after } })

/-! ### The memory port -/

/-- The state after a load has been broken off: the loader IDLE, its request withdrawn, and the destination
discarded by its kind (R173, R109, R120; what it then holds, assumption logs 54, 57 and 59). -/
def loadDiscarded (l : Loading) (s : State) : State :=
  let idle : State := { s with loader := none, arb := { s.arb with loader := none } }
  match l.kind with
  | .fare => { idle with store := setBank l.bank Bank.cold s.store }
  | .full => { idle with hot := { setShadow [] s.hot with shadow := .free, image := [] } }
  | .delta => { idle with hot := { s.hot with deltaCond := .absent, deltaOps := [], image := [] } }

/-- The state after the request in hand has been answered: the decoder is IDLE, and the place held for the
answer is filled (R152, R199). -/
def requestAnswered (request : Request) (code : AnswerCode) (s : State) : State :=
  { s with decoder := decoderIdle s.decoder, ring := ringFilling request code [] s.ring }

/-- A bank that becomes PENDING with this version and activation is due at once: line time is set, the
Line Clock is not holding, and the card minutes have reached its activation (R168). -/
def dueNow (activation : Nat) (c : Clock) : Prop :=
  c.isSet = true ∧ c.hold = false ∧ activation ≤ c.lineTime / 60

end Sys2Proof.Machine
end

