-- ==== Sys2Proof/Certificates/Slice0/Obligations.lean ====
section
/-! DEFINITION. The statements for the provers: the machine as a whole, then the commands family by
family, then rules of single units. Most statements about a command give the state at the end of its own
effect and close it with `settle`, the end of every event; EventEndFrame says what that leaves alone. -/

open Sys2Proof Sys2Proof.Machine

/-! ### The machine -/

/-- A step at a queue that is not empty is the command at its front, on the state with the rest. -/
def Obligations.StepTakesTheFrontCommand : Prop :=
  ∀ (c : Instr) (rest : List Instr) (s : State), s.pending = c :: rest →
    step s = exec c { s with pending := rest }

/-- The model's choice (logs 1 and 2): a step on an empty queue is one millisecond of the local timer. Each
countdown of a running part falls by one, the field-empty timers, the local timer and the second phase of
a clock that is set and not holding rise by one. Where no expiry is due then, nothing else happens; where
one alone is due, its command is taken in the same step. -/
def Obligations.IdleStepPassesOneMillisecond : Prop :=
  ∀ s : State, s.pending = [] →
    step s = .next (tick s) ∧
    (s.power ≠ .running → tick s = s) ∧
    (s.power = .running →
      let down := fun t : Option Nat => t.map (fun n => n - 1)
      let channel := fun c : Channel =>
        { c with
          answerTimer := down c.answerTimer, pollTimer := down c.pollTimer
          fieldEmpty := c.fieldEmpty.map (fun n => n + 1) }
      let tap := fun t : Tap => { t with hold := down t.hold }
      let stop := fun t : Option StopTimer => t.map (fun t => { t with left := t.left - 1 })
      let moved : State :=
        { s with
          chans := ⟨channel s.chans.a, channel s.chans.b⟩
          taps := ⟨tap s.taps.a, tap s.taps.b⟩
          gate :=
            { s.gate with
              passTimer :=
                match s.gate.passTimer with
                | .running left => .running (left - 1)
                | t => t
              stopTimer := ⟨stop s.gate.stopTimer.a, stop s.gate.stopTimer.b⟩ }
          ring :=
            { s.ring with
              watch := down s.ring.watch, restartPeriod := down s.ring.restartPeriod }
          clock :=
            { s.clock with
              localMs := s.clock.localMs + 1
              phase :=
                if s.clock.isSet = true ∧ s.clock.hold = false then s.clock.phase + 1
                else s.clock.phase } }
      (dueExpiries moved = [] → tick s = moved) ∧
      (∀ c t, dueExpiries moved = [c] → exec c moved = .next t → dueExpiries t = [] →
        tick s = t) ∧
      (tick s).clock.localMs = s.clock.localMs + 1 ∧ (tick s).pending = [] ∧
      (tick s).keys = s.keys ∧ (tick s).loader = s.loader ∧ (tick s).decoder = s.decoder ∧
      (tick s).store.setup = s.store.setup ∧ (tick s).emerg = s.emerg)

/-- Every command of the table completes on every state and leaves the queue of commands alone. That a
command whose event the state does not admit completes too, without effect of its own, is the model's
choice (log 3). -/
def Obligations.EveryCommandCompletes : Prop :=
  ∀ (c : Instr) (s : State), ∃ t, exec c s = .next t ∧ t.pending = s.pending

/-- The end of an event, which the model takes in one operation (log 14), leaves everything alone but the
channels that are not ENGAGED, the arbiter, the state of the Merge Engine and the local additions that
waited for a grant to end, what ring-out takes, and the leaf and indicator outputs. The leaves are commanded
by the gate state, and each command is given behind those before it: at each change of gate state, a turn
going by way of close and a change between OPEN and PASSING of one direction giving none (R142), and at the
raising and clearing of an alarm (R136, R138); where else none is given is the model's choice (log 56). No
local addition waits at a free port after it (R174). At a free port one request is granted: a Tap
Controller's before the loader's, and that before the merge's; of two that wait, that of the side the
alternation mark names; the mark then names the other side. While a grant is in use none is given. A merge
is SUSPENDED at a free port while a Tap Controller request waits there still, and goes on, its next step
asked, as soon as none waits (R117). -/
def Obligations.EventEndFrame : Prop :=
  ∀ s : State,
    standing (settle s) = standing s ∧ (settle s).taps = s.taps ∧
    (settle s).engines = s.engines ∧ (settle s).contexts = s.contexts ∧
    (settle s).sightings = s.sightings ∧ (settle s).store = s.store ∧
    (settle s).journal = s.journal ∧ (settle s).draws = s.draws ∧
    ((s.arb.inUse.isSome ∨ s.hot.waiting = []) →
      ∃ m, (settle s).hot = { s.hot with merge := m }) ∧
    (∃ m l full waiting,
      (settle s).hot =
        { s.hot with merge := m, localList := l, localFull := full, waiting := waiting }) ∧
    (s.arb.inUse = none → (settle s).hot.waiting = []) ∧
    (∀ u, s.arb.inUse = none → s.hot.waiting = [u] →
      (settle s).hot.localList =
        (if u ∈ s.hot.localList ∨ (∃ e ∈ activeEntries s.hot, e.uid = u) ∨
            256 ≤ s.hot.localList.length then s.hot.localList
        else s.hot.localList ++ [u])) ∧
    (∃ given ind,
      (settle s).gate =
        { s.gate with
          leaf := leafOf (gateState s), leafGiven := s.gate.leafGiven ++ given
          leafCause := ⟨gateState s, s.gate.alarm⟩, indicator := ind } ∧
      (∀ x y, leafOf s.gate.leafCause.state = .openToward x → leafOf (gateState s) = .openToward y →
        given = if x = y then [] else [.close, .openToward y]) ∧
      ((∀ x y, leafOf s.gate.leafCause.state = .openToward x →
          leafOf (gateState s) ≠ .openToward y) →
        given =
          if s.gate.leafCause = ⟨gateState s, s.gate.alarm⟩ then [] else [leafOf (gateState s)])) ∧
    ((settle s).gate.leaf =
      match gateState s with
      | .outOfService => .close
      | .closed => .close
      | .alarm _ => .close
      | .opened dir => .openToward dir.other
      | .passing dir => .openToward dir.other
      | .free => .free) ∧
    (∃ forward insertion filled sending,
      (settle s).ring =
        { s.ring with
          forward := forward, insertion := insertion, filled := filled, sending := sending }) ∧
    ((s.ring.sending.isSome ∨ s.ring.repeater = true) → (settle s).ring = s.ring) ∧
    (s.hot.merge = .idle → (settle s).hot.merge = .idle) ∧
    (s.arb.inUse.isSome →
      (s.hot.merge = .suspended → s.arb.tap = ⟨none, none⟩ →
        (settle s).hot.merge = .merging ∧ (settle s).arb = { s.arb with merge := true }) ∧
      ((s.hot.merge ≠ .suspended ∨ s.arb.tap ≠ ⟨none, none⟩) →
        (settle s).hot.merge = s.hot.merge ∧ (settle s).arb = s.arb)) ∧
    (∀ sd ask, s.arb.inUse = none → s.arb.tap.get sd = some ask →
      (s.arb.tap.get sd.other = none ∨ s.arb.mark = sd) →
      (∃ m, (settle s).arb =
        { s.arb with
          inUse := some (.tap sd ask), tap := s.arb.tap.set sd none, mark := sd.other
          merge := m }) ∧
      (s.hot.merge ≠ .idle → s.arb.tap.get sd.other = none →
        (settle s).hot.merge = .merging ∧ (settle s).arb.merge = true) ∧
      ((s.arb.tap.get sd.other).isSome →
        (s.hot.merge = .merging →
          (settle s).hot.merge = .suspended ∧ (settle s).arb.merge = false) ∧
        (s.hot.merge ≠ .merging →
          (settle s).hot.merge = s.hot.merge ∧ (settle s).arb.merge = s.arb.merge))) ∧
    (s.arb.inUse = none → s.arb.tap = ⟨none, none⟩ →
      let asked := s.arb.merge || decide (s.hot.merge ≠ .idle)
      (settle s).hot.merge = (if s.hot.merge = .idle then .idle else .merging) ∧
      (∀ ask, s.arb.loader = some ask →
        (settle s).arb =
          { s.arb with inUse := some (.loader ask), loader := none, merge := asked }) ∧
      (s.arb.loader = none →
        (settle s).arb =
          (if asked then { s.arb with inUse := some .merge, merge := false } else s.arb))) ∧
    (∀ sd, (s.chans.get sd).state = .engaged → (settle s).chans.get sd = s.chans.get sd)

/-- The enabled condition of a side acts on its channel (R16): OFF goes to POLLING with its first WAKE at
once, POLLING and AWAIT_REMOVAL go to OFF, ENGAGED stays. That it acts in one operation at the end of every
event, through `settle`, is the model's choice (log 14). -/
def Obligations.ChannelsFollowTheEnabledCondition : Prop :=
  ∀ (s : State) (sd : Side),
    (settle s).chans.get sd =
      match (s.chans.get sd).state, sideEnabled s sd with
      | .off, true =>
        { s.chans.get sd with
          state := .polling, outstanding := some ⟨.wake, 1⟩, answerTimer := some 5
          pollTimer := some 10 }
      | .polling, false => Channel.cold
      | .awaitRemoval, false => Channel.cold
      | _, _ => s.chans.get sd

/-- Leaves and indicators of a running part follow the gate state after every step, whatever the command,
once they do, and so does what the next leaf commands are told by (the model's working field, log 39). -/
def Obligations.LeavesAndIndicatorsFollowTheState : Prop :=
  ∀ s t : State, (s.power = .running → Shows s) → step s = .next t → (t.power = .running → Shows t)

/-- Except in FREE, the leaves are open only while the grant queue has a head grant, and only in that
grant's direction: after every step from a state whose outputs follow it. -/
def Obligations.LeavesOpenOnlyForTheHeadGrant : Prop :=
  ∀ (s t : State) (sd : Side), (s.power = .running → Shows s) → step s = .next t →
    t.power = .running → gateState t ≠ .free → t.gate.leaf = .openToward sd →
    ∃ g rest, t.gate.queue = g :: rest ∧ sd = g.side.other

/-- No step makes the Recovery Table, the Sighting Table, the local hotlist, the delta list, the grant queue
with its reserved slots, the Journal Queue with its reservations, the insertion queue with its reservations,
the forward buffer, the answer queue with its held places or the last-16 sent list hold more than its
capacity, or gives a UID a second tear context or a second sighting entry. -/
def Obligations.CapacitiesAreKept : Prop :=
  ∀ s t : State, Capacities s → step s = .next t → Capacities t

/-- A key slot in the LOCKED state never changes its key, role, version or state, through every command,
start, restart and loss of power. -/
def Obligations.LockedKeySlotsNeverChange : Prop :=
  ∀ (s t : State) (n : Nat) (e : KeyEntry), step s = .next t → slotAt s n = .locked e →
    slotAt t n = .locked e

/-- Line time never decreases while the part runs, and once set stays set: every step, the idle step
included, but one that takes a cold start or a loss of power, from a clock that is well kept. -/
def Obligations.LineTimeNeverDecreases : Prop :=
  ∀ s t : State, ClockGood s.clock → step s = .next t →
    (∀ gateNo passing rest, s.pending ≠ .coldStart gateNo passing :: rest) →
    (∀ rest, s.pending ≠ .powerLoss :: rest) →
    s.clock.lineTime ≤ t.clock.lineTime ∧ ClockGood t.clock ∧
      (s.clock.isSet = true → t.clock.isSet = true)

/-- The invariants of LeavesAndIndicatorsFollowTheState, CapacitiesAreKept and LineTimeNeverDecreases hold
after reset. That State.reset is a part that runs, with its pins and its empty queue of commands as they
are, is the model's choice (log 4). -/
def Obligations.InvariantsHoldAtReset : Prop :=
  Shows State.reset ∧ Capacities State.reset ∧ ClockGood State.reset.clock ∧
    State.reset.power = .running ∧ State.reset.pending = []

/-! ### The card path -/

/-- POLL_TIMER_EXPIRY: in POLLING and AWAIT_REMOVAL the channel sends WAKE and restarts the poll timer as it
leaves. That this WAKE, a first attempt with a window of its own, takes the place of a window still open is
the model's choice (log 58). FIELD_EMPTY_TIMEOUT: AWAIT_REMOVAL goes to POLLING; that an open WAKE window is
closed with it is its choice too (log 3). -/
def Obligations.ChannelTimersExpire : Prop :=
  ∀ (sd : Side) (s : State), s.power = .running →
    ((s.chans.get sd).pollTimer.isSome →
      ((s.chans.get sd).state = .polling ∨ (s.chans.get sd).state = .awaitRemoval) →
      exec (.pollTimerExpiry sd) s = .next (settle
        { s with
          chans := s.chans.set sd
            { s.chans.get sd with
              outstanding := some ⟨.wake, 1⟩, answerTimer := some 5, pollTimer := some 10 } })) ∧
    ((s.chans.get sd).fieldEmpty.isSome → (s.chans.get sd).state = .awaitRemoval →
      exec (.fieldEmptyTimeout sd) s = .next (settle
        { s with
          chans := s.chans.set sd
            { s.chans.get sd with
              state := .polling, fieldEmpty := none, outstanding := none, answerTimer := none } }))

/-- AIR_ANSWER_ARRIVAL, from card found to AUTHENTICATING. A GOOD WAKE answer in POLLING engages the channel
and starts the Tap Controller in SELECTING with that UID. SELECT completed: IDENTIFYING, and READ of block 0.
That READ completed: block 0 is kept unjudged, and in AUTHENTICATING the derivation of the card keys begins
from the two master keys of its key version; with one of them missing the tap is refused NO_KEY. That such
a transaction keeps the state name AUTHENTICATING is the model's choice (log 47). -/
def Obligations.CardFoundStartsATransaction : Prop :=
  ∀ (sd : Side) (n : Nat) (s : State), s.power = .running → (s.chans.get sd).answerTimer.isSome →
    let next := fun answer t =>
      exec (.airAnswerArrival sd (.good answer)) s = .next (settle t)
    (∀ u, (s.chans.get sd).state = .polling → (s.chans.get sd).outstanding = some ⟨.wake, n⟩ →
      next (.uid u)
        { s with
          chans := s.chans.set sd
            { state := .engaged, outstanding := some ⟨.select u, 1⟩, answerTimer := some 5
              pollTimer := none, fieldEmpty := (s.chans.get sd).fieldEmpty, lost := false }
          taps := s.taps.set sd
            { state := .selecting, ending := false, hold := none
              record := { TapRecord.empty with uid := some u } } }) ∧
    ((s.chans.get sd).state = .engaged → (s.chans.get sd).lost = false →
      (∀ u, (s.chans.get sd).outstanding = some ⟨.select u, n⟩ →
        next .selected
          { s with
            chans := s.chans.set sd (commanded (.read 0) (s.chans.get sd))
            taps := s.taps.set sd { s.taps.get sd with state := .identifying } }) ∧
      (∀ bytes, (s.chans.get sd).outstanding = some ⟨.read 0, n⟩ →
        (s.taps.get sd).state = .identifying → bytes.length = 16 →
        let version := blockKeyVersion bytes
        let read := { (s.taps.get sd).record with block0 := some bytes }
        (∀ auth code, cardMaster s .cardAuth version = some auth →
          cardMaster s .cardCode version = some code →
          next (.data bytes)
            { s with
              chans := s.chans.set sd (windowClosed (s.chans.get sd))
              engines := s.engines.set sd (some (.deriveAuth auth code))
              taps := s.taps.set sd
                { s.taps.get sd with state := .authenticating, record := read } }) ∧
        (cardMaster s .cardAuth version = none ∨ cardMaster s .cardCode version = none →
          HoldsNothing s sd →
          ∃ t, exec (.airAnswerArrival sd (.good (.data bytes))) s = .next t ∧
            Refused sd .noKey s t ∧ (t.taps.get sd).state = .authenticating ∧
            (t.taps.get sd).record.block0 = some bytes ∧ t.engines = s.engines)))

/-- The WAKE windows that find no card. In POLLING: NONE leaves POLLING as it is, the first BAD_FRAME sends
WAKE once more and the second counts as NONE, COLLISION shows STOP with TAP_AGAIN and goes to AWAIT_REMOVAL;
that the field-empty timer starts at 0 there, and that the poll timer runs on, is the model's choice (log
40), and so is that the WAKE sent once more leaves the poll timer running (log 58). In AWAIT_REMOVAL: NONE
leaves the field-empty timer running, and every report of the front-end restarts it at 0; no card is served.
An answer that arrives when no window is open is discarded. -/
def Obligations.WakeWindowsWithoutACard : Prop :=
  ∀ (sd : Side) (n : Nat) (report : AirReport) (s : State), s.power = .running →
    (((s.chans.get sd).outstanding = none ∨ (s.chans.get sd).answerTimer = none) →
      exec (.airAnswerArrival sd report) s = .next (settle s)) ∧
    ((s.chans.get sd).state = .polling → (s.chans.get sd).outstanding = some ⟨.wake, n⟩ →
    (s.chans.get sd).answerTimer.isSome →
    exec (.answerTimerExpiry sd) s = .next (settle
      { s with chans := s.chans.set sd (windowClosed (s.chans.get sd)) }) ∧
    exec (.airAnswerArrival sd .badFrame) s = .next (settle
      { s with
        chans := s.chans.set sd
          (if n = 1 then
            { s.chans.get sd with outstanding := some ⟨.wake, 2⟩, answerTimer := some 5 }
          else windowClosed (s.chans.get sd)) }) ∧
    exec (.airAnswerArrival sd .collision) s = .next (settle
      { s with
        chans := s.chans.set sd
          { windowClosed (s.chans.get sd) with state := .awaitRemoval, fieldEmpty := some 0 }
        gate :=
          { s.gate with stopTimer := s.gate.stopTimer.set sd (some ⟨2000, .tapAgain⟩) } })) ∧
    ((s.chans.get sd).state = .awaitRemoval → (s.chans.get sd).outstanding = some ⟨.wake, n⟩ →
    (s.chans.get sd).answerTimer.isSome →
    exec (.answerTimerExpiry sd) s = .next (settle
      { s with chans := s.chans.set sd (windowClosed (s.chans.get sd)) }) ∧
    exec (.airAnswerArrival sd report) s = .next (settle
      { s with
        chans := s.chans.set sd { windowClosed (s.chans.get sd) with fieldEmpty := some 0 } }))

/-- A window of an ENGAGED channel that ends NONE, BAD_FRAME or NAK. After the first failure of any command
but HALT the same command is sent once more with a new window. After the second the lost mark is set, and:
before DECIDING the transaction is abandoned CARD_LOST; in FINISHING of an exit the open record is closed
with HISTORY_MISSED, and HALT follows; in FINISHING of a BLOCK action HALT alone follows; in WRITING and
CONFIRMING the transaction tears, as it does at the second mismatch of a block on its read-back. A tear
makes or updates its tear context: a context of the UID that the transaction does not hold expires first
with its TORN record, a full table gives up the unheld context of the earliest deadline, the one created
first on equal deadlines, and a held context keeps its deadline, or expires when its overdue mark is set.
Its TORN takes the entry of the INTENT and joins the insertion queue, is judged against a transaction of the
other channel for the UID, and a clone mark is taken up: the UID is offered, and the notice joins behind the
TORN. The order of these hand-offs is the model's choice (log 16): an expired context's TORN record is
offered while the journal reservation still counts, and the notice joins behind the TORN. That the second
mismatch leaves the lost mark alone is its choice too (log 42). Of what a sighting finds the model's choices
are: the REFUSED before an overdue context's TORN record (log 41), a transaction that has asked HALT being
in flight no more (log 50), the free reason of a double reuse's notice (log 8), and a table full of pinned
entries that stays as it is (log 37). -/
def Obligations.FailedWindowsOfAnEngagedChannel : Prop :=
  ∀ (sd : Side) (s : State), s.power = .running →
    (s.chans.get sd).state = .engaged → (s.chans.get sd).answerTimer.isSome →
    (∀ cmd fails, cmd ≠ .halt →
      fails = .answerTimerExpiry sd ∨ fails = .airAnswerArrival sd .badFrame ∨
        fails = .airAnswerArrival sd (.good .nak) →
      ((s.chans.get sd).outstanding = some ⟨cmd, 1⟩ →
        exec fails s = .next (settle
          { s with
            chans := s.chans.set sd
              { s.chans.get sd with outstanding := some ⟨cmd, 2⟩, answerTimer := some 5 } })) ∧
      ((s.chans.get sd).outstanding = some ⟨cmd, 2⟩ →
        (s.taps.get sd).state ∈ [TapState.selecting, .identifying, .authenticating, .reading] →
        HoldsNothing s sd →
        ∃ t, exec fails s = .next t ∧ Refused sd .cardLost s t ∧ (t.chans.get sd).lost = true) ∧
      ((s.chans.get sd).outstanding = some ⟨cmd, 2⟩ → (s.taps.get sd).state = .finishing →
        let ended := fun j : Journal => exec fails s = .next (settle
          { s with
            chans := s.chans.set sd
              { s.chans.get sd with
                outstanding := some ⟨.halt, 1⟩, answerTimer := none, lost := true }
            taps := s.taps.set sd { s.taps.get sd with ending := true, hold := none }
            journal := j })
        ((s.taps.get sd).record.refusal ≠ none → ended s.journal) ∧
        (∀ before r after, (s.taps.get sd).record.refusal = none →
          s.journal.records = before ++ r :: after → r.isOpen = true → r.side = sd →
          (∀ x ∈ before, ¬ (x.isOpen = true ∧ x.side = sd)) →
          ended
            { s.journal with
              records :=
                before ++
                  { r with isOpen := false, flags := { r.flags with historyMissed := true } } ::
                    after }))) ∧
    (∀ tears lost d target image base contexts journal, Tears sd s tears lost →
      (s.taps.get sd).record.decision = some d → (s.taps.get sd).record.target = some target →
      (s.taps.get sd).record.journeyImage = some image →
      (s.taps.get sd).record.holdsInsertion = false → s.contexts.length ≤ 32 →
      TearContexts sd s d target image base contexts journal →
      let begun : State :=
        { s with
          chans := s.chans.set sd { windowClosed (s.chans.get sd) with lost := lost } }
      ∃ w, exec tears s = .next (settle (tornState sd w)) ∧
        HandedOff sd base contexts journal begun w)

/-- EXCHANGE_ENDED: the transaction ends, its bank reference falls by one, and the channel leaves ENGAGED
for AWAIT_REMOVAL when its side is enabled at that moment and for OFF when it is not. The contents of a bank
that this leaves EMPTY are the model's choice (log 57). -/
def Obligations.ExchangeEndedLeavesEngaged : Prop :=
  ∀ (sd : Side) (n : Nat) (s : State), s.power = .running →
    (s.chans.get sd).state = .engaged → (s.chans.get sd).outstanding = some ⟨.halt, n⟩ →
    ∃ t, exec (.exchangeEnded sd) s = .next t ∧
      t.chans.get sd =
        (if sideEnabled s sd then
          { state := .awaitRemoval, outstanding := none, answerTimer := none, pollTimer := some 10
            fieldEmpty := some 0, lost := false }
        else Channel.cold) ∧
      t.taps = s.taps.set sd Tap.cold ∧
      ((s.taps.get sd).record.bank = none → t.store = s.store) ∧
      (∀ id, (s.taps.get sd).record.bank = some id →
        bankOf t.store id =
          (if (bankOf s.store id).state = .draining ∧ (bankOf s.store id).refs - 1 = 0 then Bank.cold
          else { bankOf s.store id with refs := (bankOf s.store id).refs - 1 }) ∧
        bankOf t.store (otherBank id) = bankOf s.store (otherBank id)) ∧
      standing t = standing s ∧ t.contexts = s.contexts ∧ t.sightings = s.sightings ∧
      t.journal = s.journal ∧ t.engines = s.engines ∧ t.gate.queue = s.gate.queue

/-- CLAIM_HOLD_EXPIRY: the write point. The displaced sighting is dropped, and the first block of the
target slot that differs from the block as read is written, the first or the second one; when both equal it,
nothing is written, and CONFIRMING begins with the READ of the first block. -/
def Obligations.ClaimHoldExpiryIsTheWritePoint : Prop :=
  ∀ (sd : Side) (s : State), s.power = .running → (s.taps.get sd).state = .claiming →
    (s.taps.get sd).ending = false → (s.taps.get sd).hold.isSome →
    (s.chans.get sd).lost = false →
    let first := firstBlock s sd
    let second := secondBlock s sd
    let next := fun state cmd => exec (.claimHoldExpiry sd) s = .next (settle
      { s with
        sightings := s.sightings.map (fun e =>
          if e.sighting.uid = tapUid s sd ∧ ownPinned s sd e then { e with displaced := none } else e)
        taps := s.taps.set sd { s.taps.get sd with state := state, hold := none }
        chans := s.chans.set sd (commanded cmd (s.chans.get sd)) })
    (composedBlock s sd first ≠ blockAsRead s sd first →
      next .writing (.write first (composedBlock s sd first))) ∧
    (composedBlock s sd first = blockAsRead s sd first →
      composedBlock s sd second ≠ blockAsRead s sd second →
      next .writing (.write second (composedBlock s sd second))) ∧
    (composedBlock s sd first = blockAsRead s sd first →
      composedBlock s sd second = blockAsRead s sd second →
      next .confirming (.read first))

/-- HOTLIST_LOOKUP: a UID not listed passes to check 5; one listed REFUSE is refused HOTLISTED; one
listed BLOCK goes to FINISHING with its BLOCKED record offered before the write of block 0 is composed. Then
CODE_ENGINE_DONE completes the image, with status BLOCKED, every other field as read and the identity code
taken anew, and the WRITE of block 0 is sent. That the transaction is in FINISHING from the lookup on, while
the engine computes the image, is the model's choice (log 48). -/
def Obligations.HotlistLookupIsAnswered : Prop :=
  (∀ (sd : Side) (s : State), s.power = .running → s.arb.inUse = some (.tap sd .lookup) →
    (s.chans.get sd).state = .engaged → HoldsNothing s sd →
    ((lookupAnswer s.hot (tapUid s sd)).action = none →
      exec (.hotlistLookup sd) s = .next (settle
        { s with
          arb := { s.arb with inUse := none, tap := s.arb.tap.set sd (some .check5) }
          taps := s.taps.set sd
            { s.taps.get sd with
              record := { (s.taps.get sd).record with
                hotlist := some (lookupAnswer s.hot (tapUid s sd)) } } })) ∧
    ((lookupAnswer s.hot (tapUid s sd)).action = some .refuse →
      ∃ t, exec (.hotlistLookup sd) s = .next t ∧ Refused sd .hotlisted s t) ∧
    ((lookupAnswer s.hot (tapUid s sd)).action = some .block →
      ∃ t, exec (.hotlistLookup sd) s = .next t ∧ (t.taps.get sd).state = .finishing ∧
        t.engines = s.engines.set sd (some .blockIdentity) ∧ t.chans.get sd = s.chans.get sd ∧
        t.journal.counters.refusals = advance32 s.journal.counters.refusals ∧
        (1 ≤ journalAvailable s.journal → ∃ r, t.journal.records = s.journal.records ++ [r] ∧
          r.kind = .blocked ∧ r.refusal = some .hotlisted ∧ r.uid = tapUid s sd))) ∧
  ∀ (sd : Side) (keyload : Bool) (s : State), s.power = .running →
    s.engines.get sd = some .blockIdentity → (s.chans.get sd).state = .engaged →
    (s.chans.get sd).lost = false →
    let read := tapBlock0 s sd
    let fields := bytesOf read 1 3 ++ [2] ++ bytesOf read 5 12
    let image := fields ++ codeOf 4 (tapCodeKey s sd) (uidBytes (tapUid s sd) ++ fields)
    (read.length = 16 → blockStatus image = 2 ∧ ∀ n, n < 12 → n ≠ 3 → image[n]? = read[n]?) ∧
    (read.length = 16 →
      exec (.codeEngineDone (.channel sd) keyload) s = .next (settle
        { s with
          engines := s.engines.set sd none
          taps := s.taps.set sd
            { s.taps.get sd with
              record := { (s.taps.get sd).record with block0Image := some image } }
          chans := s.chans.set sd (commanded (.write 0 image) (s.chans.get sd)) }))

/-- FARE_BANK_READ for checks 1 and 5. Check 1: a card of format 1 and of a listed issuer goes on to check
2, whose code the channel's engine computes; any other is refused NO_CARD_APP. Check 5: an expiry before the
service day is CARD_EXPIRED. Check 6: with no code-verified slot the tap is refused CODE_FAIL, with a
leading slot that is not valid BAD_RECORD, and else the leading slot is the valid one and the other the
target. Check 7: a context of the UID and of this side that is not held is taken up; landed or not landed it
is held, its decision and images are taken, and check 11 follows, with a commit at once where it has landed;
else it leaves with its TORN record. Check 8: a card of the highest TC is refused CARD_EXHAUSTED, and any
other asks the read of check 9. That checks 1, 5 and 9 are one read each, and checks 6, 7 and 8 follow in
the event of check 5's, is the model's reading (log 18), and the order of a commit's hand-offs its choice
(log 16). A recovery of class (b) enters CLAIMING: that a transaction of the other side for the UID is
judged before the entering one is the model's inference (log 21), and that the entry then holds the entering
INTENT its choice (log 51). Of what a sighting finds the model's choices are: the REFUSED before an overdue
context's TORN record (log 41), a transaction that has asked HALT being in flight no more (log 50), the free
reason of a double reuse's notice (log 8), and a table full of pinned entries that stays as it is (log 37).
-/
def Obligations.DecisionOrderToCheckEight : Prop :=
  ∀ (sd : Side) (s : State), s.power = .running → (s.chans.get sd).state = .engaged →
    HoldsNothing s sd →
    (s.arb.inUse = some (.tap sd .check1) →
      if blockFormat (tapBlock0 s sd) = 1 ∧
          blockIssuer (tapBlock0 s sd) ∈ (tapTable s sd).issuers then
        exec (.fareBankRead sd) s = .next (settle
          { s with
            arb := { s.arb with inUse := none }, engines := s.engines.set sd (some .identity) })
      else ∃ t, exec (.fareBankRead sd) s = .next t ∧ Refused sd .noCardApp s t) ∧
    (s.arb.inUse = some (.tap sd .check5) →
      let r := (s.taps.get sd).record
      let refused := fun code m => ∃ t, exec (.fareBankRead sd) s = .next t ∧ Refused sd code m t
      let day := serviceDay (tapNow s sd) (tapTable s sd).dayStart
      (blockExpiry (tapBlock0 s sd) < day → refused .cardExpired s) ∧
      (day ≤ blockExpiry (tapBlock0 s sd) → (∀ l, slotCoded (recordClass r l) = false) →
        refused .codeFail s) ∧
      (∀ l, day ≤ blockExpiry (tapBlock0 s sd) → Leads r l → recordClass r l ≠ some .valid →
        refused .badRecord s) ∧
      (∀ l, day ≤ blockExpiry (tapBlock0 s sd) → Leads r l → recordClass r l = some .valid →
        let chosen :=
          { r with
            validSlot := some l, target := some (otherSlot l), cardTc := some (slotTc r l) }
        let withRecord := fun record => { s with
          arb := { s.arb with inUse := none }
          taps := s.taps.set sd { s.taps.get sd with record := record } }
        let checkEight := fun m : State =>
          (slotTc r l = 16777215 → refused .cardExhausted m) ∧
          (slotTc r l ≠ 16777215 →
            exec (.fareBankRead sd) s = .next (settle
              { m with arb := { m.arb with tap := m.arb.tap.set sd (some .check9) } }))
        ((∀ c ∈ s.contexts, c.uid = tapUid s sd → c.side ≠ sd ∨ c.holder ≠ none) →
          checkEight (withRecord chosen)) ∧
        (∀ c ∈ s.contexts, c.uid = tapUid s sd → c.side = sd → c.holder = none →
          c.overdue = false → (∀ x ∈ s.contexts, x.uid = c.uid → x = c) →
          let landed :=
            l = c.target ∧ slotTc r l = c.baseTc + 1 ∧ slotBytes r l = c.journeyImage
          let notLanded := l ≠ c.target ∧ slotTc r l = c.baseTc
          let d : Decision :=
            { accept := .recovered, fare := c.fare, balanceAfter := c.balanceAfter
              flags := c.flags, baseTc := c.baseTc, resultTc := c.baseTc + 1 }
          let recovering := fun cls => withRecord
            { chosen with
              recovery := some cls, decision := some d, target := some c.target
              journeyImage := some c.journeyImage, historyImage := c.historyImage }
          (notLanded →
            Claims sd d
              (s.contexts.map (fun x => if x.uid = c.uid then { x with holder := some sd } else x))
              (recovering .notLanded) (exec (.fareBankRead sd) s)) ∧
          (landed →
            Commits sd d (s.contexts.filter (fun x => x.uid ≠ c.uid))
              (recovering .committed) (exec (.fareBankRead sd) s)) ∧
          (¬ landed → ¬ notLanded →
            checkEight
              { withRecord { chosen with recovery := some .other } with
                contexts := s.contexts.filter (fun x => x.uid ≠ c.uid)
                journal := recordOffered (expiryRecord s c) s.journal }))))

/-- FARE_BANK_READ for checks 9 and 10, and check 11. Check 9: an UNUSED sighting of this side with the
card's TC, not contested and younger than the reuse window, is a reuse: it is the decision, and its check 11
and its commit follow in a second event, at whatever then stands in the table; else the read of check 10 is
asked. Check 10: an accept of the Fare Unit is noted and its record composed: 24 bytes, then in
CODE_ENGINE_DONE their record code, and then the history image of an exit (log 44); a refusal of the Fare
Unit refuses the tap with its code. That the station and zone of its inputs are those of the event that
serves the read is the model's choice (log 43); that checks 9 and 10 are one read each is its reading (log
18), and that the second event of a reuse is one more read its choice (log 49). Check 11, when the
composition is done or on a reuse: the reservations in their order, each missing one with its refusal, and
then CLAIMING with the INTENT entered and queued and the hold of 20 ms, a transaction of the other side for
the UID judged in the same event, or the commit. That the other side's transaction is judged before the
entering one, which orders their records and notices, is the model's inference (log 21); the entry that
stands after both are refused (log 51) and the order of the commit's hand-offs (log 16) are its choices. Of
what a sighting finds the model's choices are: the REFUSED before an overdue context's TORN record (log 41),
a transaction that has asked HALT being in flight no more (log 50), the free reason of a double reuse's
notice (log 8), and a table full of pinned entries that stays as it is (log 37). -/
def Obligations.DecisionOrderFromCheckNine : Prop :=
  ∀ (sd : Side) (keyload : Bool) (s : State), s.power = .running →
    (s.chans.get sd).state = .engaged → HoldsNothing s sd →
    (s.arb.inUse = some (.tap sd .check9) →
      let ready : State := { s with arb := { s.arb with inUse := none } }
      let card := tapCard s sd
      let reuses := fun e : SightEntry =>
        e.sighting.kind = .unused ∧ e.sighting.side = sd ∧ e.sighting.result = card.tc ∧
          e.contested = false ∧ ageOf s e.sighting.time < (tapTable s sd).reuseWindow
      let d : Decision :=
        { accept := .reuse, fare := 0, balanceAfter := card.balance, flags := noFareFlags
          baseTc := card.tc, resultTc := card.tc }
      ((∀ e, entryOf (purgeSightings s) (tapUid s sd) = some e → ¬ reuses e) →
        exec (.fareBankRead sd) s = .next (settle
          { ready with arb := { ready.arb with tap := s.arb.tap.set sd (some .check10) } })) ∧
      (∀ e, entryOf (purgeSightings s) (tapUid s sd) = some e → reuses e →
        exec (.fareBankRead sd) s = .next (settle
          { ready with
            arb := { ready.arb with tap := s.arb.tap.set sd (some .check11) }
            taps := s.taps.set sd
              { s.taps.get sd with
                record := { (s.taps.get sd).record with decision := some d } } }))) ∧
    (∀ d, s.arb.inUse = some (.tap sd .check11) → (s.taps.get sd).record.decision = some d →
      d.accept = .reuse →
      Commits sd d s.contexts { s with arb := { s.arb with inUse := none } }
        (exec (.fareBankRead sd) s)) ∧
    (s.arb.inUse = some (.tap sd .check10) →
      match fareUnit (fareInputOf s sd) with
      | .refusal code =>
        ∃ t, exec (.fareBankRead sd) s = .next t ∧ Refused sd code s t
      | .accept a =>
        exec (.fareBankRead sd) s = .next (settle
          { s with
            arb := { s.arb with inUse := none }
            engines := s.engines.set sd
              (some
                (.compose (journeyBytes (composeJourney (fareInputOf s sd) a))
                  (if sd = .a then none else some (historyFields (fareInputOf s sd) a))))
            taps := s.taps.set sd
              { s.taps.get sd with
                record := { (s.taps.get sd).record with
                  decision := some
                    { accept := if sd = .a then .entry else .exit
                      fare := a.charge, balanceAfter := a.balanceAfter, flags := a.flags
                      baseTc := (tapCard s sd).tc, resultTc := (tapCard s sd).tc + 1 } } } })) ∧
    (∀ image history d target, s.engines.get sd = some (.compose image history) →
      (s.taps.get sd).record.decision = some d → d.accept = .entry ∨ d.accept = .exit →
      (s.taps.get sd).record.recovery ≠ some .committed →
      (s.taps.get sd).record.target = some target →
      Claims sd d s.contexts
        { s with
          engines := s.engines.set sd none
          taps := s.taps.set sd
            { s.taps.get sd with
              record := { (s.taps.get sd).record with
                journeyImage := some
                  (image ++
                    recordCode (tapCodeKey s sd) (tapUid s sd) (slotNumber target) image)
                historyImage := history.map historyBytes } } }
        (exec (.codeEngineDone (.channel sd) keyload) s))

/-- CODE_ENGINE_DONE at a channel: the identity code of block 0 is judged. A code that verifies on an
ACTIVE card of class 0 to 7 asks the hotlist lookup; one that does not is refused CODE_FAIL; a BLOCKED
card is refused CARD_BLOCKED whatever its class, and one of any other status, or of a class above 7,
BAD_RECORD. -/
def Obligations.IdentityCodeIsJudged : Prop :=
  ∀ (sd : Side) (keyload : Bool) (s : State), s.power = .running →
    s.engines.get sd = some .identity → (s.chans.get sd).state = .engaged → HoldsNothing s sd →
    (blockCode (tapBlock0 s sd) ≠ identityCode (tapCodeKey s sd) (tapUid s sd) (tapBlock0 s sd) →
      ∃ t, exec (.codeEngineDone (.channel sd) keyload) s = .next t ∧ Refused sd .codeFail s t) ∧
    (blockCode (tapBlock0 s sd) = identityCode (tapCodeKey s sd) (tapUid s sd) (tapBlock0 s sd) →
      (blockStatus (tapBlock0 s sd) = 2 →
        ∃ t, exec (.codeEngineDone (.channel sd) keyload) s = .next t ∧
          Refused sd .cardBlocked s t) ∧
      (blockStatus (tapBlock0 s sd) ≠ 2 →
        (blockStatus (tapBlock0 s sd) ≠ 1 ∨ 7 < blockClass (tapBlock0 s sd)) →
        ∃ t, exec (.codeEngineDone (.channel sd) keyload) s = .next t ∧
          Refused sd .badRecord s t) ∧
      (blockStatus (tapBlock0 s sd) = 1 → blockClass (tapBlock0 s sd) ≤ 7 →
        exec (.codeEngineDone (.channel sd) keyload) s = .next (settle
          { s with
            engines := s.engines.set sd none
            arb := { s.arb with tap := s.arb.tap.set sd (some .lookup) } })))

/-- AUTHENTICATING and READING, up to the entry to DECIDING. CODE_ENGINE_DONE: the two card keys are derived
one after the other, and the first pass of AUTH is sent; the part's response goes out with its challenge (a
free value, log 6) in the second pass; the card's response is judged, and one that verifies takes the
transaction to READING with READ of block 1, one that does not is refused AUTH_FAIL; slot A is classed, then
slot B, and with it DECIDING is entered: the decision time, the reference to the ACTIVE fare bank with its
version, and the request of check 1. AIR_ANSWER_ARRIVAL: the answers of both passes go to the engine, and
the READs of blocks 1 to 4 follow one another. What each computation covers is log 19; that slot A's record
code is asked first and slot B's after it, one completion each, is the model's choice (log 55). -/
def Obligations.CardResponseIsJudged : Prop :=
  ∀ (sd : Side) (keyload : Bool) (s : State), s.power = .running →
    (s.chans.get sd).state = .engaged → (s.chans.get sd).lost = false →
    let tap := s.taps.get sd
    let r := tap.record
    let chan := s.chans.get sd
    let done := fun t => exec (.codeEngineDone (.channel sd) keyload) s = .next (settle t)
    let answered := fun bytes t =>
      exec (.airAnswerArrival sd (.good (.data bytes))) s = .next (settle t)
    (∀ auth code, s.engines.get sd = some (.deriveAuth auth code) →
      done
        { s with
          engines := s.engines.set sd (some (.deriveCode code))
          taps := s.taps.set sd
            { tap with record := { r with authKey := some (cardKey auth (tapUid s sd)) } } }) ∧
    (∀ code, s.engines.get sd = some (.deriveCode code) →
      done
        { s with
          engines := s.engines.set sd none
          taps := s.taps.set sd
            { tap with record := { r with codeKey := some (cardKey code (tapUid s sd)) } }
          chans := s.chans.set sd (commanded .authFirst chan) }) ∧
    (∀ n bytes, chan.outstanding = some ⟨.authFirst, n⟩ → chan.answerTimer.isSome →
      bytes.length = 8 →
      answered bytes
        { s with
          engines := s.engines.set sd (some .partResponse)
          taps := s.taps.set sd { tap with record := { r with cardChallenge := bytes } }
          chans := s.chans.set sd (windowClosed chan) }) ∧
    (s.engines.get sd = some .partResponse →
      let challenge := toBE 8 (Config.challengeDraw s.draws).toNat
      done
        { s with
          engines := s.engines.set sd none, draws := s.draws + 1
          taps := s.taps.set sd { tap with record := { r with partChallenge := challenge } }
          chans := s.chans.set sd
            (commanded
              (.authSecond (codeOf 8 (r.authKey.getD 0) (r.cardChallenge ++ challenge)) challenge)
              chan) }) ∧
    (∀ n response challenge bytes, chan.outstanding = some ⟨.authSecond response challenge, n⟩ →
      chan.answerTimer.isSome → bytes.length = 8 →
      answered bytes
        { s with
          engines := s.engines.set sd (some .cardResponse)
          taps := s.taps.set sd { tap with record := { r with cardResponse := bytes } }
          chans := s.chans.set sd (windowClosed chan) }) ∧
    (s.engines.get sd = some .cardResponse → HoldsNothing s sd →
      if r.cardResponse = codeOf 8 (r.authKey.getD 0) (r.partChallenge ++ r.cardChallenge) then
        done
          { s with
            engines := s.engines.set sd none
            taps := s.taps.set sd { tap with state := .reading }
            chans := s.chans.set sd (commanded (.read 1) chan) }
      else ∃ t, exec (.codeEngineDone (.channel sd) keyload) s = .next t ∧
        Refused sd .authFail s t) ∧
    (∀ block n bytes, chan.outstanding = some ⟨.read block, n⟩ → chan.answerTimer.isSome →
      tap.state = .reading → bytes.length = 16 →
      let kept := s.taps.set sd { tap with record := { r with blocks := r.blocks ++ [bytes] } }
      (block < 4 →
        answered bytes
          { s with taps := kept, chans := s.chans.set sd (commanded (.read (block + 1)) chan) }) ∧
      (4 ≤ block →
        answered bytes
          { s with
            taps := kept, chans := s.chans.set sd (windowClosed chan)
            engines := s.engines.set sd (some (.slotCode .a)) })) ∧
    (s.engines.get sd = some (.slotCode .a) →
      done
        { s with
          engines := s.engines.set sd (some (.slotCode .b))
          taps := s.taps.set sd
            { tap with
              record := { r with
                classA :=
                  some (classOfSlot (tapCodeKey s sd) (tapUid s sd) .a (slotBytes r .a)) } } }) ∧
    (∀ id, s.engines.get sd = some (.slotCode .b) → bankIn s.store .active = some id →
      done
        { s with
          engines := s.engines.set sd none
          arb := { s.arb with tap := s.arb.tap.set sd (some .check1) }
          store := setBank id { bankOf s.store id with refs := (bankOf s.store id).refs + 1 } s.store
          taps := s.taps.set sd
            { tap with
              state := .deciding
              record := { r with
                classB := some (classOfSlot (tapCodeKey s sd) (tapUid s sd) .b (slotBytes r .b))
                decisionTime := some s.clock.lineTime, bank := some id
                fareVersion := some (bankOf s.store id).version } } })

/-- WRITING, CONFIRMING and the commit. A WRITE acknowledged: the second block follows the first, unless it
equals the block as read, and CONFIRMING follows the second; a rewritten block is read again; in FINISHING
the open record of an exit is closed unchanged, and HALT follows. A read-back: the second block follows the
first; then each block not confirmed is rewritten once, the first one first. The read-back that confirms
both is the commit of an ENTRY, an EXIT or a recovery of class (b): the grant slot becomes a grant, the
journal reservation becomes the record, the counters advance, a held context leaves the Recovery Table, the
COMMIT takes the entry of the own INTENT and is judged against a transaction of the other channel for the
UID, a clone mark is taken up, and an entry asks HALT while an exit goes to FINISHING with its history
write. The grant joins the tail of the queue, and starts the pass timer of a CLOSED gate alone; in
OUT_OF_SERVICE and FREE, whose queue R126 and R139 leave empty, it is withdrawn unused at once, with its
record, which has EMERGENCY in FREE, and its UNUSED in the entry. That the accept's record stands before
that of the grant withdrawn, and the UNUSED in the entry after the COMMIT, is the order that the model chose
(log 16). Of what a sighting finds the model's choices are: the REFUSED before an overdue context's TORN
record (log 41), a transaction that has asked HALT being in flight no more (log 50), the free reason of a
double reuse's notice (log 8), and a table full of pinned entries that stays as it is (log 37). -/
def Obligations.CommitConvertsTheReservations : Prop :=
  ∀ (sd : Side) (n : Nat) (s : State), s.power = .running → (s.chans.get sd).state = .engaged →
    (s.chans.get sd).lost = false → (s.chans.get sd).answerTimer.isSome →
    let tap := s.taps.get sd
    let chan := s.chans.get sd
    let first := firstBlock s sd
    let second := secondBlock s sd
    let next := fun answer t => exec (.airAnswerArrival sd (.good answer)) s = .next (settle t)
    let sends := fun (answer : AirAnswer) (tap : Tap) (cmd : AirCommand) =>
      next answer
        { s with taps := s.taps.set sd tap, chans := s.chans.set sd (commanded cmd chan) }
    (∀ block bytes, chan.outstanding = some ⟨.write block bytes, n⟩ →
      (tap.state = .writing → block = first →
        composedBlock s sd second ≠ blockAsRead s sd second →
        sends .ack tap (.write second (composedBlock s sd second))) ∧
      (tap.state = .writing →
        block = second ∨ (block = first ∧ composedBlock s sd second = blockAsRead s sd second) →
        sends .ack { tap with state := .confirming } (.read first)) ∧
      (tap.state = .confirming → sends .ack tap (.read block)) ∧
      (tap.state = .finishing → tap.record.refusal ≠ none → next .ack (haltAsked sd s)) ∧
      (∀ before r after, tap.state = .finishing → tap.record.refusal = none →
        s.journal.records = before ++ r :: after → r.isOpen = true → r.side = sd →
        (∀ x ∈ before, ¬ (x.isOpen = true ∧ x.side = sd)) →
        next .ack
          { haltAsked sd s with
            journal :=
              { s.journal with records := before ++ { r with isOpen := false } :: after } })) ∧
    (∀ isFirst bytes, tap.state = .confirming → bytes.length = 16 →
      chan.outstanding = some ⟨.read (if isFirst then first else second), n⟩ →
      let composed := composedBlock s sd (if isFirst then first else second)
      let again := if isFirst then tap.record.rewritten.first else tap.record.rewritten.second
      let confirmed : BlockSet :=
        if bytes ≠ composed then tap.record.confirmed
        else if isFirst then { tap.record.confirmed with first := true }
        else { tap.record.confirmed with second := true }
      let seen := { tap.record with confirmed := confirmed }
      (isFirst = true → again = false →
        sends (.data bytes) { tap with record := seen } (.read second)) ∧
      (isFirst = false ∨ again = true → again = false ∨ bytes = composed →
        (confirmed.first = false →
          sends (.data bytes)
            { tap with record := { seen with rewritten := { seen.rewritten with first := true } } }
            (.write first (composedBlock s sd first))) ∧
        (confirmed.first = true → confirmed.second = false →
          sends (.data bytes)
            { tap with record := { seen with rewritten := { seen.rewritten with second := true } } }
            (.write second (composedBlock s sd second))) ∧
        (∀ d, confirmed.first = true → confirmed.second = true → bytes = composed →
          Capacities s → tap.record.decision = some d →
          ((sd = .a ∧ d.accept = .entry) ∨ (sd = .b ∧ d.accept = .exit) ∨ d.accept = .recovered) →
          tap.record.holdsGrant = true → tap.record.holdsJournal = true →
          tap.record.holdsInsertion = false → 1 ≤ s.journal.reserved → 1 ≤ s.gate.reserved →
          ∃ u, exec (.airAnswerArrival sd (.good (.data bytes))) s = .next (settle u) ∧
            Committed sd d
              (match heldContext s sd with
              | none => s.contexts
              | some c => s.contexts.filter (fun x => x.uid ≠ c.uid))
              { s with
                chans := s.chans.set sd (windowClosed chan)
                taps := s.taps.set sd { tap with record := seen } } u)))

/-! ### The memory port -/

/-- LOCAL_HOTLIST_ADDITION: a UID offered at a free port is judged in that event: on the list or in the
active bank it is not added, with 256 entries LOCAL_FULL is set, and otherwise it joins the list. Offered
while a grant is in use it waits, in the order of the offers, and the end of the event that frees the port
judges it before the next grant begins. That the offer itself is an operand of the command is the model's
choice (log 13). -/
def Obligations.LocalAdditionIsJudged : Prop :=
  ∀ (u : Uid) (s : State),
    (s.power = .running → (s.arb.inUse.isSome ∨ s.hot.waiting = []) →
      exec (.localHotlistAddition u) s = .next (settle
        (if s.arb.inUse.isSome then
          { s with hot := { s.hot with waiting := s.hot.waiting ++ [u] } }
        else if u ∈ s.hot.localList ∨ ∃ e ∈ activeEntries s.hot, e.uid = u then s
        else if s.hot.localList.length < 256 then
          { s with hot := { s.hot with localList := s.hot.localList ++ [u] } }
        else { s with hot := { s.hot with localFull := true } }))) ∧
    (s.arb.inUse = none → s.hot.waiting = [u] →
      let h := (settle s).hot
      h.waiting = [] ∧
      ((u ∈ s.hot.localList ∨ ∃ e ∈ activeEntries s.hot, e.uid = u) →
        h.localList = s.hot.localList ∧ h.localFull = s.hot.localFull) ∧
      (u ∉ s.hot.localList → (∀ e ∈ activeEntries s.hot, e.uid ≠ u) →
        (s.hot.localList.length < 256 →
          h.localList = s.hot.localList ++ [u] ∧ h.localFull = s.hot.localFull) ∧
        (256 ≤ s.hot.localList.length →
          h.localList = s.hot.localList ∧ h.localFull = true)))

/-- MERGE_STEP: the smallest UID of the two inputs is taken. An active entry is written unchanged, the
operation of a delta in its place or alone: an ADD with its action, a REMOVE with nothing. When both inputs
are exhausted, in the same event, the shadow becomes the active bank under the delta's new version, the
delta goes ABSENT, the local list is pruned and the Merge Engine is IDLE. That a merge of two empty inputs
completes in one grant that writes nothing is the model's choice (log 45). So are the contents of the FREE
shadow, which are those of the old active bank (log 59). -/
def Obligations.MergeStepTakesTheSmallestUid : Prop :=
  ∀ (e : HotEntry) (o : DeltaOp) (es : List HotEntry) (os : List DeltaOp) (s : State),
    s.power = .running → s.arb.inUse = some .merge →
    let written : List HotEntry :=
      match o with
      | .add u action => [⟨u, action⟩]
      | .remove _ => []
    let goesOn := fun (shadow es' : List HotEntry) (os' : List DeltaOp) =>
      exec .mergeStep s = .next (settle
        { s with
          arb := { s.arb with inUse := none }
          hot := { setShadow shadow s.hot with mergeEntries := es', mergeOps := os' } })
    let completes := fun shadow : List HotEntry =>
      ∃ u, exec .mergeStep s = .next (settle u) ∧
        activeEntries u.hot = shadow ∧ shadowEntries u.hot = activeEntries s.hot ∧
        u.hot.version = s.hot.deltaNew ∧ u.hot.shadow = .free ∧ u.hot.deltaCond = .absent ∧
        u.hot.deltaOps = [] ∧ u.hot.merge = .idle ∧ u.hot.mergeEntries = [] ∧ u.hot.mergeOps = [] ∧
        u.hot.localList =
          s.hot.localList.filter (fun v => !shadow.any (fun h => h.uid = v)) ∧
        (u.hot.localFull = true ↔ s.hot.localFull = true ∧ 256 ≤ u.hot.localList.length) ∧
        u.hot.waiting = s.hot.waiting ∧
        u = { s with arb := { s.arb with inUse := none }, hot := u.hot }
    (s.hot.mergeEntries = e :: es → s.hot.mergeOps = o :: os → e.uid < o.uid →
      goesOn (shadowEntries s.hot ++ [e]) es (o :: os)) ∧
    (s.hot.mergeEntries = e :: es → s.hot.mergeOps = o :: os → o.uid < e.uid →
      goesOn (shadowEntries s.hot ++ written) (e :: es) os) ∧
    (s.hot.mergeEntries = e :: es → s.hot.mergeOps = o :: os → o.uid = e.uid →
      if es = [] ∧ os = [] then completes (shadowEntries s.hot ++ written)
      else goesOn (shadowEntries s.hot ++ written) es os) ∧
    (s.hot.mergeEntries = e :: es → s.hot.mergeOps = [] →
      if es = [] then completes (shadowEntries s.hot ++ [e])
      else goesOn (shadowEntries s.hot ++ [e]) es []) ∧
    (s.hot.mergeEntries = [] → s.hot.mergeOps = o :: os →
      if os = [] then completes (shadowEntries s.hot ++ written)
      else goesOn (shadowEntries s.hot ++ written) [] os) ∧
    (s.hot.mergeEntries = [] → s.hot.mergeOps = [] → completes (shadowEntries s.hot))

/-- LOADER_WRITE: the data join the image at the destination, the count of bytes received rises by their
number, and the LOAD_DATA is answered DONE. -/
def Obligations.LoaderWriteAppendsTheData : Prop :=
  ∀ (l : Loading) (data : List Byte) (s : State), s.power = .running →
    s.arb.inUse = some (.loader (.write data)) → s.loader = some l →
    exec .loaderWrite s = .next (settle
      { s with
        arb := { s.arb with inUse := none }
        loader := some { l with received := l.received + data.length }
        decoder := decoderIdle s.decoder
        ring := ringFilling .loadData .done [] s.ring
        store :=
          if l.kind = .fare then
            setBank l.bank
              { bankOf s.store l.bank with image := (bankOf s.store l.bank).image ++ data } s.store
          else s.store
        hot := if l.kind = .fare then s.hot else { s.hot with image := s.hot.image ++ data } })

/-- LOADER_READ: the reads of a LOAD_END go through the image (in pieces of the model's choice, log 15);
under a table code each piece goes to the ring engine, which computes the code as they arrive, and after the
last one its result is awaited. The last one of the contents check judges them by the kind of the load. A
FARE image that passes makes its bank PENDING, or ACTIVE at once when it is due; a FULL image that passes
becomes the active bank; a DELTA of another base version is VERSION_MISMATCH, and one that passes is looked
up operation by operation, and then becomes PRESENT and starts the merge when the bank has room for it. An
image that fails, or finds no room, is TABLE_INVALID, and the load is broken off. The model's choices are
the contents of a bank that is EMPTY (log 57) and of a shadow that is FREE (log 59), and the two versions
that a delta list not accepted keeps (log 54). -/
def Obligations.LoaderReadGoesThroughTheImage : Prop :=
  ∀ (l : Loading) (n : Nat) (s : State), s.power = .running →
    s.arb.inUse = some (.loader .read) → s.loader = some l →
    let served : State := { s with arb := { s.arb with inUse := none } }
    let next := fun t => exec .loaderRead s = .next (settle t)
    let asks := fun phase =>
      next
        { s with
          arb := { s.arb with inUse := none, loader := some .read }
          loader := some { l with phase := phase } }
    let fails := fun code => next (requestAnswered .loadEnd code (loadDiscarded l served))
    let finished : State := requestAnswered .loadEnd .done { served with loader := none }
    let starts := fun ops : List DeltaOp =>
      if countAfter (activeEntries s.hot) ops ≤ 16384 then
        ∃ u, next u ∧ u.hot.deltaCond = .present ∧ u.hot.deltaOps = ops ∧
          u.hot.deltaBase = imageHalf s.hot.image 0 ∧ u.hot.deltaNew = imageHalf s.hot.image 2 ∧
          u.hot.shadow = .mergingInto ∧ u.hot.merge = .merging ∧
          u.hot.mergeEntries = activeEntries s.hot ∧ u.hot.mergeOps.Perm ops ∧
          u.hot.mergeOps.Pairwise (fun a b => a.uid ≤ b.uid) ∧ shadowEntries u.hot = [] ∧
          activeEntries u.hot = activeEntries s.hot ∧ u.hot.version = s.hot.version ∧
          u.hot.localList = s.hot.localList ∧ u.hot.image = [] ∧
          u = { finished with hot := u.hot }
      else fails .tableInvalid
    (∀ key read, l.phase = .code n → s.ringEngine = some (.tableCode key read) →
      let fed : State :=
        { served with
          ringEngine := some (.tableCode key (read ++ ((loadImage s l).drop n).take 64)) }
      (n + 64 < l.length →
        next
          { fed with
            arb := { fed.arb with loader := some .read }
            loader := some { l with phase := .code (n + 64) } }) ∧
      (l.length ≤ n + 64 → next { fed with loader := some { l with phase := .coding } })) ∧
    (l.phase = .contents n → n + 64 < l.length → asks (.contents (n + 64))) ∧
    (l.kind = .fare → l.phase = .contents n → l.length ≤ n + 64 →
      (bankOf s.store (otherBank l.bank)).state ≠ .pending →
      let image := (bankOf s.store l.bank).image
      let table := parseFareTable image
      let loaded := fun state : BankState =>
        { bankOf s.store l.bank with
          state := state, version := table.version, activation := table.activation }
      (fareImageGood image = false → fails .tableInvalid) ∧
      (fareImageGood image = true → ¬ dueNow table.activation s.clock →
        next { finished with store := setBank l.bank (loaded .pending) s.store }) ∧
      (fareImageGood image = true → dueNow table.activation s.clock →
        ∃ u, next u ∧ bankOf u.store l.bank = loaded .active ∧
          bankOf u.store (otherBank l.bank) =
            bankRetired (bankOf s.store (otherBank l.bank)) ∧
          u.store.params = some
            { version := table.version, activation := table.activation
              passWindow := table.passWindow, reuseWindow := table.reuseWindow
              retention := table.retention } ∧
          u.store.setup = s.store.setup ∧
          u.sightings = s.sightings.filter (fun e => e.pin || !outlived u e.sighting) ∧
          u = { finished with store := u.store, sightings := u.sightings })) ∧
    (l.kind = .full → l.phase = .contents n → l.length ≤ n + 64 →
      (parseFull s.hot.image = none → fails .tableInvalid) ∧
      (∀ es, parseFull s.hot.image = some es →
        ∃ u, next u ∧ activeEntries u.hot = es ∧ shadowEntries u.hot = activeEntries s.hot ∧
          u.hot.version = imageHalf s.hot.image 0 ∧ u.hot.shadow = .free ∧
          u.hot.deltaCond = .absent ∧ u.hot.deltaOps = [] ∧ u.hot.image = [] ∧
          u.hot.merge = s.hot.merge ∧
          u.hot.localList = s.hot.localList.filter (fun v => !es.any (fun h => h.uid = v)) ∧
          (u.hot.localFull = true ↔ s.hot.localFull = true ∧ 256 ≤ u.hot.localList.length) ∧
          u = { finished with hot := u.hot })) ∧
    (l.kind = .delta → l.phase = .contents n → l.length ≤ n + 64 →
      (parseDelta s.hot.image = none → fails .tableInvalid) ∧
      (∀ ops, parseDelta s.hot.image = some ops →
        (imageHalf s.hot.image 0 ≠ s.hot.version → fails .versionMismatch) ∧
        (imageHalf s.hot.image 0 = s.hot.version → ops ≠ [] → asks (.room 0)) ∧
        (imageHalf s.hot.image 0 = s.hot.version → ops = [] → starts ops))) ∧
    (∀ ops, l.kind = .delta → l.phase = .room n → parseDelta s.hot.image = some ops →
      (n + 1 < ops.length → asks (.room (n + 1))) ∧
      (ops.length ≤ n + 1 → starts ops))

/-- A hotlist lookup is answered from the view: a present delta, then the active bank, then the local list,
with the version of the active bank. It is asked at check 4, when the identity code of block 0 and its
status and class have passed, and is served whole within one grant of the store arbiter, from the lists as
they stand at it; the answer goes into the transaction record, and the Hotlist Store keeps nothing of it. -/
def Obligations.LookupReadsTheView : Prop :=
  (∀ (h : Hotlist) (u : Uid),
    (lookupAnswer h u).version = h.version ∧
    (∀ action, h.deltaCond = .present → h.deltaOps.find? (fun o => o.uid = u) = some (.add u action) →
      (lookupAnswer h u).action = some action) ∧
    (h.deltaCond = .present → h.deltaOps.find? (fun o => o.uid = u) = some (.remove u) →
      (lookupAnswer h u).action = if u ∈ h.localList then some .refuse else none) ∧
    (∀ e, (h.deltaCond ≠ .present ∨ ∀ o ∈ h.deltaOps, o.uid ≠ u) →
      (activeEntries h).find? (fun e => e.uid = u) = some e →
      (lookupAnswer h u).action = some e.action) ∧
    ((h.deltaCond ≠ .present ∨ ∀ o ∈ h.deltaOps, o.uid ≠ u) → (∀ e ∈ activeEntries h, e.uid ≠ u) →
      (lookupAnswer h u).action = if u ∈ h.localList then some .refuse else none)) ∧
  (∀ (sd : Side) (keyload : Bool) (s : State), s.power = .running →
    s.engines.get sd = some .identity → (s.chans.get sd).state = .engaged →
    blockCode (tapBlock0 s sd) = identityCode (tapCodeKey s sd) (tapUid s sd) (tapBlock0 s sd) →
    blockStatus (tapBlock0 s sd) = 1 → blockClass (tapBlock0 s sd) ≤ 7 →
    exec (.codeEngineDone (.channel sd) keyload) s = .next (settle
      { s with
        engines := s.engines.set sd none
        arb := { s.arb with tap := s.arb.tap.set sd (some .lookup) } })) ∧
  ∀ (sd : Side) (s : State), s.power = .running → s.arb.inUse = some (.tap sd .lookup) →
    s.arb.tap.get sd = none → (s.chans.get sd).state = .engaged →
    ∃ t, exec (.hotlistLookup sd) s = .next t ∧ t.arb.inUse ≠ some (.tap sd .lookup) ∧
      (t.taps.get sd).record.hotlist = some (lookupAnswer s.hot (tapUid s sd)) ∧
      (s.hot.waiting = [] → ∃ m, t.hot = { s.hot with merge := m })

/-! ### The line -/

/-- SIGHTING_ARRIVAL of a UID for which no transaction of this gate is in flight. An inconsistent or
outlived sighting is dropped; another is entered, unpinned and not contested, where no entry stands for its
UID, after the eviction of the oldest unpinned entry of a full table; on a standing entry it is applied by
kind and source, and a contest, a state behind the entry and a double reuse offer the UID to the local
hotlist. Entries past their period are gone, and the frame goes on. That a transaction which has asked HALT
is in flight no more, so that the UID is offered as by a bystander, is the model's choice (log 50). -/
def Obligations.SightingOfANewUid : Prop :=
  ∀ (f : RingFrame) (x : Sighting) (s : State), s.power = .running → receives s f = true →
    strips s f = false → takesSighting s f = true → parseSighting f = some x →
    inFlight s .a x.uid = false → inFlight s .b x.uid = false →
    let live := s.sightings.filter (fun e => e.pin || !outlived s e.sighting)
    let new : SightEntry := { sighting := x, contested := false, pin := false, displaced := none }
    let leaves := fun (table : List SightEntry) (hot : Hotlist) =>
      exec (.sightingArrival f) s = .next (settle
        { s with ring := ringPassing f s.ring, sightings := table, hot := hot })
    ((consistent x = false ∨ outlived s x = true) → leaves live s.hot) ∧
    (consistent x = true → outlived s x = false →
      ((∀ e ∈ live, e.sighting.uid ≠ x.uid) →
        (live.length < 2048 → leaves (live ++ [new]) s.hot) ∧
        (∀ before o after, live = before ++ o :: after → live.length = 2048 → o.pin = false →
          (∀ e ∈ before, e.pin = false → o.sighting.time < e.sighting.time) →
          (∀ e ∈ after, e.pin = false → o.sighting.time ≤ e.sighting.time) →
          leaves (before ++ after ++ [new]) s.hot)) ∧
      (∀ e, live.find? (fun y => y.sighting.uid = x.uid) = some e →
        let entry := fun (y : SightEntry) (hot : Hotlist) =>
          leaves (live.map (fun z => if z.sighting.uid = x.uid then y else z)) hot
        let taken : SightEntry := { new with contested := e.contested }
        (e.sighting.source = x.source → e.pin = false → entry taken s.hot) ∧
        ((e.sighting.source ≠ x.source ∨ e.pin = true) →
          (x.kind = .intent →
            (e.sighting.kind = .intent →
              entry
                (if e.sighting.base < x.base then { taken with contested := true }
                else { e with contested := true }) (uidOffered x.uid s)) ∧
            (e.sighting.kind ∈ [SightKind.commit, .unused] →
              if x.base < e.sighting.result then entry e (uidOffered x.uid s)
              else entry taken s.hot) ∧
            (e.sighting.kind = .torn →
              if x.base < e.sighting.base then entry e (uidOffered x.uid s)
              else entry taken s.hot)) ∧
          (x.kind ≠ .intent →
            (x.result < e.sighting.result → entry e s.hot) ∧
            (e.sighting.result ≤ x.result →
              entry taken
                (if x.kind = .commit ∧ x.base = x.result ∧ e.sighting.kind = .commit ∧
                    e.sighting.base = e.sighting.result ∧ e.sighting.source ≠ x.source ∧
                    e.sighting.result = x.result then uidOffered x.uid s
                else s.hot))))))

/-- SIGHTING_ARRIVAL of any kind, and an own sighting of the other channel, for a UID with a transaction of
this gate in flight. The sighting is taken into the table, and then judged against the transaction, by the
clone check or else by the clone action that the rule gave. A finding in CLAIMING refuses it CLONE_SUSPECT:
the hold stopped, the INTENT withdrawn from the queue and from its entry, which takes the finding's
sighting, contested when that is an INTENT, the reservations and the context given back, the UID offered and
the notice joined. A finding in WRITING and CONFIRMING sets the clone mark, the first reason staying, and
the transaction runs on. With none in flight the rule's clone action is a bystander's. A frame that is not
an INTENT joins the insertion queue as R97 says. The own UNUSED is here that of PASS_TIMER_EXPIRY; the own
COMMIT and TORN are in CommitConvertsTheReservations, DecisionOrderFromCheckNine and
FailedWindowsOfAnEngagedChannel. That side A is judged before side B is the model's choice (log 20), and so
are that a transaction which has asked HALT is in flight no more (log 50), that the REFUSED record stands
before the TORN record of an overdue context given back (log 41), the free reason of a double reuse's notice
(log 8), and that a table full of pinned entries stays as it is (log 37). -/
def Obligations.ForeignCommitRefusesTheClaim : Prop :=
  (∀ (f : RingFrame) (x : Sighting) (s : State), s.power = .running → receives s f = true →
    strips s f = false → takesSighting s f = true → parseSighting f = some x → consistent x = true →
    outlived s x = false →
    ∃ table rule v u, TableTakes (Meets x) x (liveEntries s s.sightings) table rule ∧
      SideJudged .a x rule
        (bystanding x rule { s with ring := ringPassing f s.ring, sightings := table }) v ∧
      SideJudged .b x rule v u ∧ exec (.sightingArrival f) s = .next (settle u)) ∧
  (∀ (g : Grant) (left : Nat) (dir : Side) (s : State), s.power = .running →
    s.gate.passTimer = .running left → gateState s = .opened dir → s.gate.queue = [g] →
    ∃ u, exec .passTimerExpiry s = .next (settle u) ∧
      OwnTaken g.side (makeSighting s g.side g.uid .unused g.tc g.tc)
        { s with
          gate := { s.gate with queue := [], passTimer := .stopped }
          journal := unusedOffered s false s.journal g } u) ∧
  ∀ (m : LineMsg) (r : Ring),
    Joins m r (joinInsertion m r).insertion ∧
      joinInsertion m r = { r with insertion := (joinInsertion m r).insertion }

/-- CLONE_NOTICE_ARRIVAL: the entry of its UID becomes contested, and the UID is offered to the local
hotlist, where a UID already listed adds nothing. -/
def Obligations.CloneNoticeContestsTheEntry : Prop :=
  ∀ (f : RingFrame) (u : Uid) (s : State), s.power = .running → receives s f = true →
    strips s f = false → takesNotice s f = true → parseNotice f = some u →
    s.arb.inUse = none → s.hot.waiting = [] →
    exec (.cloneNoticeArrival f) s = .next (settle
      { s with
        ring := ringPassing f s.ring
        hot :=
          if u ∈ s.hot.localList ∨ ∃ e ∈ activeEntries s.hot, e.uid = u then s.hot
          else if s.hot.localList.length < 256 then
            { s.hot with localList := s.hot.localList ++ [u] }
          else { s.hot with localFull := true }
        sightings :=
          (s.sightings.filter (fun e => e.pin || !outlived s e.sighting)).map
            (fun e => if e.sighting.uid = u then { e with contested := true } else e) })

/-- BEACON: the watch restarts at 2000 ms, the ring is JOINED, and the clock is set, stepped or held; the
Sighting Table keeps what is pinned or within its period at the line time reached, a PENDING fare table that
is due then becomes ACTIVE, and tear contexts whose deadline is reached expire or get their overdue mark.
That the periods are those of a table activated in the same event is the model's choice (log 46). The
contents of a bank that this leaves EMPTY are the model's choice (log 57). -/
def Obligations.BeaconSetsOrHoldsTheClock : Prop :=
  ∀ (f : RingFrame) (time : Nat) (s : State), s.power = .running → receives s f = true →
    takesBeacon f = true → strips s f = false → parseBeacon f = some time →
    ∃ t, exec (.beacon f) s = .next t ∧ t.ring.watch = some 2000 ∧ t.ring.joined = true ∧
      t.clock.localMs = s.clock.localMs ∧
      (s.clock.isSet = true → time < s.clock.lineTime →
        t.clock.lineTime = s.clock.lineTime ∧ t.clock.hold = true ∧ t.clock.isSet = true ∧
        t.clock.phase = 0 ∧ t.sightings = s.sightings ∧ t.contexts = s.contexts ∧
        t.store = s.store ∧ t.journal = s.journal) ∧
      ((s.clock.isSet = false ∨ s.clock.lineTime ≤ time) →
        t.clock.lineTime = time ∧ t.clock.hold = false ∧ t.clock.isSet = true ∧ t.clock.phase = 0 ∧
        LineTimeMoved s t) ∧
      t.keys = s.keys ∧ t.decoder = s.decoder ∧ t.loader = s.loader ∧
      ((s.arb.inUse.isSome ∨ s.hot.waiting = []) → t.hot.localList = s.hot.localList) ∧
      t.taps = s.taps ∧ t.gate.queue = s.gate.queue ∧ t.ring.sent = s.ring.sent

/-- LINE_TIME_ADVANCE: line time of a clock that is set and not holding rises by 1, up to its largest value;
a PENDING fare table that this makes due becomes ACTIVE, and the bank that was ACTIVE drains, or empties
when no transaction references it. A tear context whose deadline is reached expires with its TORN record
when no transaction holds it, the earlier deadline first and the one created first on equal ones, and gets
its overdue mark when one does. Sightings past their period are gone. That the periods are those of a table
activated in the same event is the model's choice (log 46). The contents of a bank that this leaves EMPTY
are the model's choice (log 57). -/
def Obligations.LineTimeAdvanceActivatesATable : Prop :=
  ∀ s : State, s.power = .running →
    ((s.clock.isSet = false ∨ s.clock.hold = true) → exec .lineTimeAdvance s = .next (settle s)) ∧
    (s.clock.isSet = true → s.clock.hold = false →
      ∃ t, exec .lineTimeAdvance s = .next t ∧
        t.clock = { s.clock with lineTime := min (s.clock.lineTime + 1) 4294967295, phase := 0 } ∧
        LineTimeMoved s t ∧
        ((s.arb.inUse.isSome ∨ s.hot.waiting = []) → t.hot.localList = s.hot.localList) ∧
        t.taps = s.taps ∧ t.keys = s.keys ∧ t.gate.queue = s.gate.queue)

/-- BEACON_WATCH_EXPIRY takes the ring to ISOLATED and stops the watch; SENT_ENTRY_AGEING removes the
oldest entry of the last-16 sent list; STOP_TIMER_EXPIRY ends the STOP of its side alone, whose indicator
then shows what the other lines of the table give. -/
def Obligations.PlainTimersExpire : Prop :=
  ∀ (sd : Side) (s : State), s.power = .running →
    (s.ring.watch.isSome →
      exec .beaconWatchExpiry s = .next (settle
        { s with ring := { s.ring with watch := none, joined := false } })) ∧
    (∀ e rest, s.ring.sent = e :: rest →
      exec .sentEntryAgeing s = .next (settle { s with ring := { s.ring with sent := rest } })) ∧
    exec (.stopTimerExpiry sd) s = .next (settle
      { s with gate := { s.gate with stopTimer := s.gate.stopTimer.set sd none } }) ∧
    (∀ t, exec (.stopTimerExpiry sd) s = .next t → gateState t ≠ .free →
      gateState t ≠ .outOfService → t.gate.indicator.get sd = indicatorBelowStop t sd)

/-- FRAME_STRIPPED: a frame of this gate's number removes the oldest entry of its kind, length and CRC from
the sent list; with none, DUPLICATE_NUMBER is set, and a gate that is not FREE goes OUT_OF_SERVICE: every
grant is withdrawn unused, the head's first, with its UNUSED record, without EMERGENCY, and its UNUSED
sighting; the pass timer is stopped, every alarm but FORCED cleared, the leaves closed, and the reservation
count stands but for what a transaction that finds an UNUSED gives back. That the head's grant is withdrawn
first is the model's choice (log 38). Of what a sighting finds the model's choices are: the REFUSED before
an overdue context's TORN record (log 41), a transaction that has asked HALT being in flight no more (log
50), the free reason of a double reuse's notice (log 8), and a table full of pinned entries that stays as it
is (log 37). -/
def Obligations.OwnFrameIsStripped : Prop :=
  ∀ (f : RingFrame) (s : State), s.power = .running → receives s f = true → strips s f = true →
    (∀ e before after, s.ring.sent = before ++ e :: after →
      (e.kind = f.kind ∧ e.length = f.payload.length ∧ e.crc = f.crc) →
      (∀ x ∈ before, ¬ (x.kind = f.kind ∧ x.length = f.payload.length ∧ x.crc = f.crc)) →
      exec (.frameStripped f) s = .next (settle
        { s with ring := { s.ring with sent := before ++ after } })) ∧
    ((∀ x ∈ s.ring.sent, ¬ (x.kind = f.kind ∧ x.length = f.payload.length ∧ x.crc = f.crc)) →
      let marked : State := { s with ring := { s.ring with duplicate := true } }
      ∃ u, exec (.frameStripped f) s = .next (settle u) ∧ LaneEmptied marked s.gate.queue u ∧
        u.ring.duplicate = true ∧ u.ring.sent = s.ring.sent ∧ u.gate.queue = [] ∧
        u.gate.passTimer = .stopped ∧ u.gate.occupancy = s.gate.occupancy ∧
        (u.gate.alarm = if s.gate.alarm = some .forced then some .forced else none) ∧
        (gateState s ≠ .free → gateState u = .outOfService ∧ (settle u).gate.leaf = .close) ∧
        ((∀ g ∈ s.gate.queue, anyInFlight s g.uid = false) →
          u.journal =
              s.gate.queue.foldl (unusedOffered s (decide (gateState s = .free))) s.journal ∧
            u.gate.reserved = s.gate.reserved ∧ u.taps = s.taps ∧ u.contexts = s.contexts) ∧
        (s.gate.queue = [] → u.sightings = s.sightings) ∧
        u.keys = s.keys ∧ u.store = s.store ∧ u.clock = s.clock)

/-- FRAME_FORWARDED, FRAME_DROPPED and ANSWER_QUEUE_FULL_DROP: a good frame that this gate neither strips
nor takes joins the forward buffer, and is dropped when 4 frames are held; one that is not good leaves no
trace; a request that finds no place is dropped, and goes on only when it is for all gates. -/
def Obligations.FramesPassOrAreDropped : Prop :=
  ∀ (f : RingFrame) (bytes : List Byte) (s : State), s.power = .running →
    exec (.frameDropped bytes) s = .next (settle s) ∧
    (receives s f = true → strips s f = false → takenByNone s f = true →
      exec (.frameForwarded f) s = .next (settle
        (if s.ring.forward.length < 4 then
          { s with ring := { s.ring with forward := s.ring.forward ++ [f] } }
        else s))) ∧
    (receives s f = true → strips s f = false → takesRequest s f = true → 4 ≤ answerUsed s.ring →
      exec (.answerQueueFullDrop f) s = .next (settle { s with ring := ringPassing f s.ring }))

/-- RING_OUT_FRAME_END: an own frame makes its entry in the sent list; a journal frame takes its record
out of the queue with it; a forwarded frame makes no entry. -/
def Obligations.RingOutFrameEndFreesTheLine : Prop :=
  ∀ (x : Sending) (s : State), s.power = .running → s.ring.sending = some x →
    s.ring.sent.length < 16 → sendsRestart s = false →
    exec .ringOutFrameEnd s = .next (settle
      { s with
        ring :=
          { s.ring with
            sending := none
            sent :=
              if x.origin = .forward then s.ring.sent
              else s.ring.sent ++
                [{ kind := x.frame.kind, length := x.frame.payload.length, crc := x.frame.crc
                   sentAt := s.clock.localMs }] }
        journal :=
          if x.origin = .journal then { s.journal with records := s.journal.records.drop 1 }
          else s.journal })

/-- The ring-out arbiter at an idle ring-out takes the oldest frame of the first source that offers one:
forward buffer, insertion queue, answer queue, and a closed record of the Journal Queue while JOINED; a
full sent list holds back all but the first. -/
def Obligations.RingOutTakesTheFirstSource : Prop :=
  ∀ (s : State), s.ring.sending = none → s.ring.repeater = false →
    (∀ f rest, s.ring.forward = f :: rest →
      (ringOutTake s).ring = { s.ring with forward := rest, sending := some ⟨f, .forward⟩ }) ∧
    (s.ring.forward = [] → 16 ≤ s.ring.sent.length → ringOutTake s = s) ∧
    (s.ring.forward = [] → s.ring.sent.length < 16 →
      (∀ m rest, s.ring.insertion = m :: rest →
        (ringOutTake s).ring =
          { s.ring with insertion := rest, sending := some ⟨lineFrame m, .insertion⟩ }) ∧
      (s.ring.insertion = [] →
        (∀ f rest, s.ring.filled = f :: rest →
          (ringOutTake s).ring = { s.ring with filled := rest, sending := some ⟨f, .answer⟩ }) ∧
        (s.ring.filled = [] →
          (∀ r rest, s.journal.records = r :: rest → r.isOpen = false → s.ring.joined = true →
            (ringOutTake s).ring =
              { s.ring with sending := some ⟨journalFrame s.ring.gateNo r, .journal⟩ }) ∧
          ((s.journal.records = [] ∨ s.ring.joined = false ∨
            ∃ r rest, s.journal.records = r :: rest ∧ r.isOpen = true) → ringOutTake s = s))))

/-! ### The lane and the gate -/

/-- ENTER: the occupancy rises by 1, up to 2. A third person is a TAILGATE; on the head's entry side the
head is entered, or in PASSING a second grant of its direction; on the far side and with no head it is an
INTRUSION, and with no grant left to enter a TAILGATE. In ALARM, OUT_OF_SERVICE and FREE nothing else. -/
def Obligations.EnterByTheGateState : Prop :=
  ∀ (sd : Side) (s : State), s.power = .running →
    let gate := { s.gate with occupancy := min (s.gate.occupancy + 1) 2 }
    let next := fun g => exec (.enter sd) s = .next (settle { s with gate := g })
    (gateState s ∈ [GateState.outOfService, .free] ∨ (∃ k, gateState s = .alarm k) → next gate) ∧
    ((gateState s = .closed ∨ ∃ dir, gateState s = .opened dir ∨ gateState s = .passing dir) →
      2 ≤ s.gate.occupancy → next (alarmRaised .tailgate gate)) ∧
    (s.gate.occupancy < 2 →
      (gateState s = .closed → next (alarmRaised .intrusion gate)) ∧
      (gateState s = .opened sd.other ∨ gateState s = .passing sd.other →
        next (alarmRaised .intrusion gate)) ∧
      (∀ g rest, gateState s = .opened sd → s.gate.queue = g :: rest →
        next { gate with queue := { g with entered := true } :: rest, passTimer := .stopped }) ∧
      (∀ g x rest, gateState s = .passing sd → s.gate.queue = g :: x :: rest →
        next
          (if x.side = g.side ∧ x.entered = false then
            { gate with queue := g :: { x with entered := true } :: rest }
          else alarmRaised .tailgate gate)) ∧
      (∀ g, gateState s = .passing sd → s.gate.queue = [g] → next (alarmRaised .tailgate gate)))

/-- PASSED: the occupancy falls by 1, down to 0. In PASSING the far side consumes the head, and the pass
timer starts for a new head that is not entered; the entry side takes back the mark of the grant entered
last, and the timer starts when it was the head's. In every other state nothing else. -/
def Obligations.PassedConsumesOrBacksOut : Prop :=
  ∀ (sd : Side) (s : State), s.power = .running →
    let gate := { s.gate with occupancy := s.gate.occupancy - 1 }
    (gateState s ≠ .passing .a → gateState s ≠ .passing .b →
      exec (.passed sd) s = .next (settle { s with gate := gate })) ∧
    (∀ g rest, gateState s = .passing sd.other → s.gate.queue = g :: rest →
      exec (.passed sd) s = .next (settle
        { s with
          gate :=
            { gate with
              queue := rest
              passTimer :=
                match rest with
                | [] => .stopped
                | h :: _ => if h.entered then .stopped else fullWindow s }
          journal :=
            { s.journal with counters :=
              { s.journal.counters with passages := advance32 s.journal.counters.passages } } })) ∧
    (∀ g x rest, gateState s = .passing sd → s.gate.queue = g :: x :: rest →
      exec (.passed sd) s = .next (settle
        { s with
          gate :=
            if x.entered then { gate with queue := g :: { x with entered := false } :: rest }
            else
              { gate with
                queue := { g with entered := false } :: x :: rest, passTimer := fullWindow s } })) ∧
    (∀ g, gateState s = .passing sd → s.gate.queue = [g] →
      exec (.passed sd) s = .next (settle
        { s with
          gate := { gate with queue := [{ g with entered := false }], passTimer := fullWindow s } }))

/-- CLEAR: the occupancy is 0. In PASSING both marks are cleared and the pass timer starts with the full
window; an alarm other than FORCED is cleared with the marks, and a paused pass timer resumes, while a head
without one gets the full window. -/
def Obligations.ClearEmptiesTheLane : Prop :=
  ∀ s : State, s.power = .running →
    let unmarked := s.gate.queue.map (fun g => { g with entered := false })
    let gate := { s.gate with occupancy := 0 }
    let next := fun g => exec .clear s = .next (settle { s with gate := g })
    ((∃ dir, gateState s = .passing dir) →
      next { gate with queue := unmarked, passTimer := fullWindow s }) ∧
    (∀ k, gateState s = .alarm k → k ≠ .forced →
      (∀ left, s.gate.passTimer = .paused left →
        next { gate with alarm := none, queue := unmarked, passTimer := .running left }) ∧
      ((∀ left, s.gate.passTimer ≠ .paused left) →
        next
          { gate with
            alarm := none, queue := unmarked
            passTimer := if s.gate.queue = [] then s.gate.passTimer else fullWindow s })) ∧
    (gateState s = .alarm .forced ∨ gateState s ∈ [GateState.outOfService, .closed, .free] ∨
      (∃ dir, gateState s = .opened dir) → next gate)

/-- FORCED and OCCUPIED_LONG: FORCED is raised in every gate state but FREE and replaces every other alarm;
OBSTRUCTED is raised in CLOSED, OPEN and PASSING alone. A running pass timer is paused, and every grant
keeps its place and its mark. -/
def Obligations.ForcedAndOccupiedLongRaiseAlarms : Prop :=
  ∀ s : State, s.power = .running →
    exec .forced s = .next (settle
      (if gateState s = .free then s else { s with gate := alarmRaised .forced s.gate })) ∧
    ((gateState s = .closed ∨ ∃ dir, gateState s = .opened dir ∨ gateState s = .passing dir) →
      exec .occupiedLong s = .next (settle { s with gate := alarmRaised .obstructed s.gate })) ∧
    ((gateState s ∈ [GateState.outOfService, .free] ∨ ∃ k, gateState s = .alarm k) →
      exec .occupiedLong s = .next (settle s))

/-- PASS_TIMER_EXPIRY in OPEN: the head is withdrawn unused with its record, or is counted unrecorded when
the Journal Queue is full, and with its UNUSED sighting; the second becomes head with the full window. The
UNUSED takes the entry of the UID when that is of its own source, as the COMMIT of the grant is, or of a
result no higher; another entry stays. No transaction of the UID is in flight here. That one which has asked
HALT counts as none is the model's choice (log 50). -/
def Obligations.PassTimerExpiryWithdrawsTheHead : Prop :=
  ∀ (g : Grant) (rest : List Grant) (dir : Side) (left : Nat) (s : State), s.power = .running →
    s.gate.passTimer = .running left → gateState s = .opened dir → s.gate.queue = g :: rest →
    (∀ h ∈ rest, h.entered = false) → inFlight s .a g.uid = false → inFlight s .b g.uid = false →
    let x : Sighting :=
      { uid := g.uid, kind := .unused, base := g.tc, result := g.tc
        source := ⟨s.ring.gateNo, g.side⟩, side := g.side, time := s.clock.lineTime }
    let live := s.sightings.filter (fun e => e.pin || !outlived s e.sighting)
    ∃ t, exec .passTimerExpiry s = .next t ∧ t.gate.queue = rest ∧
      t.gate.passTimer = (if rest = [] then .stopped else
        match s.store.params with
        | some p => .running (p.passWindow * 1000)
        | none => .running left) ∧
      gateState t = (match rest with
        | [] => .closed
        | h :: _ => .opened h.side) ∧
      (1 ≤ journalAvailable s.journal →
        ∃ r, t.journal.records = s.journal.records ++ [r] ∧ r.kind = .unused ∧ r.uid = g.uid ∧
          r.cls = g.cls ∧ r.side = g.side ∧ r.tcAfter = some g.tc ∧ r.flags = noFlags ∧
          r.lineTime = s.clock.lineTime ∧ r.sequence = s.journal.nextSequence ∧ r.refusal = none ∧
          r.tcBefore = none ∧ r.fare = none ∧ r.balanceAfter = none ∧
          t.journal.counters.unrecorded = s.journal.counters.unrecorded) ∧
      (journalAvailable s.journal = 0 →
        t.journal.records = s.journal.records ∧
        t.journal.nextSequence = s.journal.nextSequence ∧
        t.journal.counters.unrecorded = advance32 s.journal.counters.unrecorded) ∧
      t.journal.counters.unused = advance32 s.journal.counters.unused ∧
      t.journal.counters.fareTotal = s.journal.counters.fareTotal ∧
      ((∀ e ∈ live, e.sighting.uid ≠ g.uid) →
        (live.length < 2048 ∨ (live.length = 2048 ∧ ∃ e ∈ live, e.pin = false)) →
        entryOf t g.uid =
          some { sighting := x, contested := false, pin := false, displaced := none }) ∧
      (∀ e, live.find? (fun y => y.sighting.uid = g.uid) = some e →
        entryOf t g.uid = some
          (if (e.sighting.source = x.source ∧ e.pin = false) ∨ e.sighting.result ≤ g.tc then
            { sighting := x, contested := e.contested, pin := false, displaced := none }
          else e)) ∧
      t.taps = s.taps ∧ t.contexts = s.contexts ∧ t.store = s.store ∧ standing t = standing s

/-- EMERG_ASSERTED takes the gate to FREE from any state: every grant is withdrawn unused, the head first,
each with its UNUSED record, flag EMERGENCY set, and its UNUSED sighting, and counted (the records exactly,
where no transaction of a grant's UID is in flight, which the UNUSED could refuse); the pass timer is
stopped, every alarm but FORCED cleared, the leaves are free, and a side that is POLLING or in AWAIT_REMOVAL
goes OFF while an ENGAGED one finishes. EMERG_RELEASED: while the management free flag stands the gate stays
FREE; otherwise, with the empty queue that FREE leaves, it is OUT_OF_SERVICE, ALARM(FORCED) or CLOSED. Of
what a sighting finds the model's choices are: the REFUSED before an overdue context's TORN record (log 41),
a transaction that has asked HALT being in flight no more (log 50), the free reason of a double reuse's
notice (log 8), and a table full of pinned entries that stays as it is (log 37). -/
def Obligations.EmergencyFreesTheGate : Prop :=
  ∀ s : State, s.power = .running →
    (∃ t, exec .emergAsserted s = .next t ∧ t.emerg = true ∧ gateState t = .free ∧
      t.gate.queue = [] ∧ t.gate.passTimer = .stopped ∧
      t.gate.alarm = (if s.gate.alarm = some .forced then some .forced else none) ∧
      t.gate.leaf = .free ∧ t.gate.indicator = ⟨.free, .free⟩ ∧
      t.gate.freeFlag = s.gate.freeFlag ∧
      (s.gate.queue ≠ [] →
        t.journal.counters.unused =
          (s.journal.counters.unused + s.gate.queue.length) % 4294967296) ∧
      (∃ u, LaneEmptied { s with emerg := true } s.gate.queue u ∧ t = settle u) ∧
      ((∀ g ∈ s.gate.queue, anyInFlight s g.uid = false) →
        t.journal = s.gate.queue.foldl (unusedOffered s true) s.journal ∧ t.taps = s.taps) ∧
      (s.gate.queue = [] → t.journal = s.journal ∧ t.taps = s.taps ∧ t.sightings = s.sightings) ∧
      (∀ sd, (s.chans.get sd).state ∈ [ChanState.polling, .awaitRemoval] →
        t.chans.get sd = Channel.cold) ∧
      (∀ sd, (s.chans.get sd).state = .engaged → (t.chans.get sd).state = .engaged) ∧
      t.keys = s.keys ∧ t.store = s.store ∧ t.clock = s.clock ∧ t.decoder = s.decoder) ∧
    ((gateState { s with emerg := false } ≠ .free ∧
        gateState { s with emerg := false } ≠ .outOfService) ∨
      (s.gate.queue = [] ∧ s.gate.passTimer = .stopped ∧
        (s.gate.alarm = none ∨ s.gate.alarm = some .forced)) →
      exec .emergReleased s = .next (settle { s with emerg := false })) ∧
    (s.gate.queue = [] → (s.gate.alarm = none ∨ s.gate.alarm = some .forced) →
      gateState { s with emerg := false } =
        (if s.gate.freeFlag then .free
        else if outOfService s then .outOfService
        else if s.gate.alarm = some .forced then .alarm .forced
        else .closed))

/-! ### Management requests -/

/-- DESCRIBE, STATUS and COUNTERS are open: each is answered DONE in the event of its arrival with the
data of its table, and nothing else changes. -/
def Obligations.OpenRequestsAreAnswered : Prop :=
  ∀ (f : RingFrame) (s : State),
    (Judged .describe f s → exec (.describe f) s = .next (settle
      { s with
        ring := ringAnswering .describe .done (descriptor s) (ringPassing f s.ring)
        decoder := decoderIdle s.decoder })) ∧
    (Judged .status f s → exec (.status f) s = .next (settle
      { s with
        ring := ringAnswering .status .done (statusData s) (ringPassing f s.ring)
        decoder := decoderIdle s.decoder })) ∧
    (Judged .counters f s → exec (.counters f) s = .next (settle
      { s with
        ring :=
          ringAnswering .counters .done (countersData s.journal.counters) (ringPassing f s.ring)
        decoder := decoderIdle s.decoder })) ∧
    (descriptor s).length = 46 ∧ (statusData s).length = 60 ∧
    (countersData s.journal.counters).length = 44 ∧
    numOf (descriptor s) 1 2 = 0x2F6E ∧ numOf (descriptor s) 3 4 = 0x0316 ∧
    numOf (statusData s) 1 1 = gateStateCode (gateState s) ∧
    numOf (statusData s) 10 13 = s.clock.lineTime % 4294967296 ∧
    numOf (statusData s) 20 21 = s.sightings.length % 65536 ∧
    numOf (statusData s) 53 54 = s.journal.records.length % 65536 ∧
    numOf (countersData s.journal.counters) 37 44 =
      s.journal.counters.fareTotal % 18446744073709551616

/-- COUNTERS_CLEAR is answered DONE with the ten counters and sets them to 0 in the same event; records,
reservations and the next sequence stay. RESTART is answered DONE, and the decoder is RESTART_PENDING. -/
def Obligations.CountersClearAndRestart : Prop :=
  ∀ (f : RingFrame) (s : State),
    (Uncoded .countersClear f s → exec (.countersClear f true) s = .next (settle
      { uncodedAnswered .countersClear .done (countersData s.journal.counters) f s with
        journal := { s.journal with counters := Counters.zero } })) ∧
    (Uncoded .restart f s → exec (.restart f true) s = .next (settle
      { uncodedAnswered .restart .done [] f s with
        decoder := { decoderIdle s.decoder with state := .restartPending } }))

/-- SETUP: with every field in its range the record is written and DUPLICATE_NUMBER cleared, and the gate
state follows: where that is OUT_OF_SERVICE, every grant is withdrawn unused with its record and sighting,
the pass timer stopped, every alarm but FORCED cleared and the leaves closed; with a field out of range the
answer is BAD_VALUE and the record stands. Of what a sighting finds the model's choices are: the REFUSED
before an overdue context's TORN record (log 41), a transaction that has asked HALT being in flight no more
(log 50), the free reason of a double reuse's notice (log 8), and a table full of pinned entries that stays
as it is (log 37). That the head's grant is withdrawn first is its choice too (log 38). -/
def Obligations.SetupIsWrittenWhole : Prop :=
  ∀ (f : RingFrame) (s : State), Uncoded .setup f s →
    let station := numOf (requestParams f.payload) 1 2
    let zone := numOf (requestParams f.payload) 3 3
    let mode := gateModeOf (numOf (requestParams f.payload) 4 4)
    let service := serviceOf (numOf (requestParams f.payload) 5 5)
    ((station < 1 ∨ 65534 < station ∨ 15 < zone ∨ mode = none ∨ service = none) →
      exec (.setup f true) s = .next (settle (uncodedAnswered .setup .badValue [] f s))) ∧
    (∀ m v, 1 ≤ station → station ≤ 65534 → zone ≤ 15 → mode = some m → service = some v →
      let written : State :=
        { s with
          keyload := true
          ring := { ringPassing f s.ring with held := s.ring.held + 1, duplicate := false }
          store := { s.store with setup := some ⟨station, zone, m, v⟩ } }
      ∃ t, exec (.setup f true) s = .next t ∧
        t.store = { s.store with setup := some ⟨station, zone, m, v⟩ } ∧
        t.ring.duplicate = false ∧ t.keys = s.keys ∧ t.clock = s.clock ∧ t.decoder.state = .idle ∧
        (∃ u, t = settle (requestAnswered .setup .done u) ∧
          (laneShut written → LaneEmptied written s.gate.queue u) ∧
          (¬ laneShut written → u = written)) ∧
        (v = .outService → gateState t ≠ .free →
          gateState t = .outOfService ∧ t.gate.queue = [] ∧ t.gate.passTimer = .stopped ∧
          t.gate.leaf = .close ∧
          (t.gate.alarm = if s.gate.alarm = some .forced then some .forced else none)) ∧
        (s.gate.queue = [] → s.gate.passTimer = .stopped → s.gate.alarm = none →
          t = settle
            { uncodedAnswered .setup .done [] f s with
              ring :=
                { ringAnswering .setup .done [] (ringPassing f s.ring) with duplicate := false }
              store := { s.store with setup := some ⟨station, zone, m, v⟩ } }))

/-- GATE: FREE_ON sets the management free flag and enters FREE, where each grant is withdrawn unused with
its UNUSED record, flag EMERGENCY set, and its UNUSED sighting (the records exactly, where no transaction of
a grant's UID is in flight); FREE_OFF clears it, and the gate state is derived; ALARM_RELEASE clears an
alarm of any kind with the marks and sets the occupancy to 0; any other action is answered BAD_VALUE and
changes nothing. Of what a sighting finds the model's choices are: the REFUSED before an overdue context's
TORN record (log 41), a transaction that has asked HALT being in flight no more (log 50), the free reason of
a double reuse's notice (log 8), and a table full of pinned entries that stays as it is (log 37). -/
def Obligations.GateActionsAreTaken : Prop :=
  ∀ (f : RingFrame) (s : State), Uncoded .gate f s →
    let action := numOf (requestParams f.payload) 1 1
    let unmarked := s.gate.queue.map (fun g => { g with entered := false })
    (action = 1 → ∃ t, exec (.gateFreeOn f true) s = .next t ∧ t.gate.freeFlag = true ∧
      gateState t = .free ∧ t.gate.queue = [] ∧ t.gate.passTimer = .stopped ∧
      t.gate.alarm = (if s.gate.alarm = some .forced then some .forced else none) ∧
      (∃ u,
        LaneEmptied
          { s with
            keyload := true
            ring := { ringPassing f s.ring with held := s.ring.held + 1 }
            gate := { s.gate with freeFlag := true } } s.gate.queue u ∧
        t = settle (requestAnswered .gate .done u)) ∧
      ((∀ g ∈ s.gate.queue, anyInFlight s g.uid = false) →
        t.journal = s.gate.queue.foldl (unusedOffered s true) s.journal ∧ t.taps = s.taps) ∧
      t.gate.leaf = .free ∧ t.keys = s.keys ∧ t.store = s.store ∧ t.decoder.state = .idle) ∧
    (action = 2 → ∃ t, exec (.gateFreeOff f true) s = .next t ∧ t.gate.freeFlag = false ∧
      gateState t = gateState { s with gate := { s.gate with freeFlag := false } } ∧
      t.gate.occupancy = s.gate.occupancy ∧ t.keys = s.keys ∧ t.store = s.store ∧
      t.decoder.state = .idle) ∧
    (action = 3 → exec (.gateAlarmRelease f true) s = .next (settle
      { uncodedAnswered .gate .done [] f s with
        gate :=
          if s.gate.alarm = none then { s.gate with occupancy := 0 }
          else
            { s.gate with
              occupancy := 0, alarm := none, queue := unmarked
              passTimer :=
                match s.gate.passTimer with
                | .paused left => .running left
                | t => if s.gate.queue = [] then t else fullWindow s } })) ∧
    ((action < 1 ∨ 3 < action) →
      exec (.gateActionBadValue f true) s = .next (settle (uncodedAnswered .gate .badValue [] f s)))

/-- LOAD_BEGIN: in RECEIVING the load in progress is first broken off, whatever the answer will be. Then, as
with the loader IDLE, kind, length and destination are judged, and the destination is emptied when the load
begins. The model's choices are the contents of a bank that is EMPTY (log 57) and of a shadow that is FREE
(log 59), and the two versions that a delta list not PRESENT keeps (log 54). -/
def Obligations.LoadBeginOpensADestination : Prop :=
  ∀ (f : RingFrame) (s₀ : State), Uncoded .loadBegin f s₀ →
    let s : State := match s₀.loader with
      | none => s₀
      | some l => loadDiscarded l s₀
    let kind := numOf (requestParams f.payload) 1 1
    let length := numOf (requestParams f.payload) 2 5
    let answered := fun code => uncodedAnswered .loadBegin code [] f s
    let next := fun t => exec (.loadBegin f true) s₀ = .next (settle t)
    ((kind < 1 ∨ 3 < kind) → next (answered .badValue)) ∧
    (kind = 1 → (length = 0 ∨ 512 < length) → next (answered .badValue)) ∧
    (kind = 2 → (length = 0 ∨ 131076 < length) → next (answered .badValue)) ∧
    (kind = 3 → (length = 0 ∨ 4614 < length) → next (answered .badValue)) ∧
    (kind = 1 → 1 ≤ length → length ≤ 512 →
      next
        (if (bankOf s.store (loadBank s.store)).state = .draining then answered .busy
        else
          { answered .done with
            loader := some ⟨.fare, loadBank s.store, length, 0, .data⟩
            store := setBank (loadBank s.store) Bank.cold s.store })) ∧
    (kind = 2 → 1 ≤ length → length ≤ 131076 →
      next
        (if s.hot.merge = .idle then
          { answered .done with
            loader := some ⟨.full, .x, length, 0, .data⟩
            hot := { setShadow [] s.hot with shadow := .loading, image := [] } }
        else answered .busy)) ∧
    (kind = 3 → 1 ≤ length → length ≤ 4614 →
      next
        (if s.hot.deltaCond = .present then answered .busy
        else
          { answered .done with
            loader := some ⟨.delta, .x, length, 0, .data⟩
            hot := { s.hot with deltaCond := .receiving, deltaOps := [], image := [] } }))

/-- LOAD_DATA and LOAD_END: with the loader IDLE both are BAD_SEQUENCE. A LOAD_DATA at the contiguous offset
within the length asks its write, a LOAD_END of a complete image accepted uncoded asks its first read, and
both stay in hand; any other breaks off the load, discards its destination, be it a fare bank, the shadow or
the delta list, and is BAD_SEQUENCE. What a destination discarded then holds is the model's choice: an EMPTY
bank (log 57), a FREE shadow (log 59), and the two versions of an ABSENT delta list (log 54). -/
def Obligations.LoadDataAndEndInSequence : Prop :=
  ∀ (f : RingFrame) (s : State),
    let offset := numOf (requestParams f.payload) 1 4
    let data := (requestParams f.payload).drop 5
    (Uncoded .loadData f s → s.loader = none →
      exec (.loadData f true) s = .next (settle (uncodedAnswered .loadData .badSequence [] f s))) ∧
    (Uncoded .loadEnd f s → s.loader = none →
      exec (.loadEnd f true) s = .next (settle (uncodedAnswered .loadEnd .badSequence [] f s))) ∧
    (∀ l, s.loader = some l →
      (Uncoded .loadData f s → offset = l.received → offset + data.length ≤ l.length →
        exec (.loadData f true) s = .next (settle
          { uncodedInHand .loadData f s with
            arb := { s.arb with loader := some (.write data) } })) ∧
      (Uncoded .loadData f s →
        (offset ≠ l.received ∨ l.length < offset + data.length) →
        exec (.loadData f true) s = .next (settle
          (loadDiscarded l (uncodedAnswered .loadData .badSequence [] f s)))) ∧
      (Uncoded .loadEnd f s → l.received = l.length →
        exec (.loadEnd f true) s = .next (settle
          { uncodedInHand .loadEnd f s with
            arb := { s.arb with loader := some .read }
            loader := some { l with phase := .contents 0 } })) ∧
      (Uncoded .loadEnd f s → l.received ≠ l.length →
        exec (.loadEnd f true) s = .next (settle
          (loadDiscarded l (uncodedAnswered .loadEnd .badSequence [] f s)))))

/-- KEY_WRITE and KEY_LOCK: slot number, LOCKED, role and EMPTY are judged in order, and an accepted
request asks its change of the nonvolatile store and stays in hand. -/
def Obligations.KeyChangesAreAsked : Prop :=
  ∀ (f : RingFrame) (s : State),
    let params := requestParams f.payload
    let slot := numOf params 1 1
    (Uncoded .keyWrite f s →
      let answered := fun code => settle (uncodedAnswered .keyWrite code [] f s)
      (7 < slot → exec (.keyWrite f true) s = .next (answered .badValue)) ∧
      (∀ e, slot ≤ 7 → slotAt s slot = .locked e →
        exec (.keyWrite f true) s = .next (answered .slotLocked)) ∧
      (slot ≤ 7 → (∀ e, slotAt s slot ≠ .locked e) → keyRoleOf (numOf params 2 2) = none →
        exec (.keyWrite f true) s = .next (answered .badValue)) ∧
      (∀ role, slot ≤ 7 → (∀ e, slotAt s slot ≠ .locked e) →
        keyRoleOf (numOf params 2 2) = some role →
        exec (.keyWrite f true) s = .next (settle
          { uncodedInHand .keyWrite f s with
            decoder :=
              { (uncodedInHand .keyWrite f s).decoder with
                change := some
                  ⟨slot, .loaded ⟨BitVec.ofNat 128 (numOf params 4 19), role, numOf params 3 3⟩⟩ } }))) ∧
    (Uncoded .keyLock f s →
      let answered := fun code => settle (uncodedAnswered .keyLock code [] f s)
      ((7 < slot ∨ slotAt s slot = .empty) →
        exec (.keyLock f true) s = .next (answered .badValue)) ∧
      (∀ e, slot ≤ 7 → slotAt s slot = .locked e →
        exec (.keyLock f true) s = .next (answered .slotLocked)) ∧
      (∀ e, slot ≤ 7 → slotAt s slot = .loaded e →
        exec (.keyLock f true) s = .next (settle
          { uncodedInHand .keyLock f s with
            decoder :=
              { (uncodedInHand .keyLock f s).decoder with change := some ⟨slot, .locked e⟩ } })))

/-- NONVOLATILE_WRITE_DONE: the slot holds its new contents, every other slot stands, and the request is
answered DONE with slot, role, version and state, and never the key. -/
def Obligations.KeyChangeCompletes : Prop :=
  ∀ (h : InHand) (slot : Nat) (e : KeyEntry) (isLock : Bool) (s : State), s.power = .running →
    s.decoder.inHand = some h → slot ≤ 7 → (∀ e, slotAt s slot ≠ .locked e) →
    s.decoder.change = some ⟨slot, if isLock then .locked e else .loaded e⟩ →
    ∃ t, exec .nonvolatileWriteDone s = .next t ∧
      slotAt t slot = (if isLock then .locked e else .loaded e) ∧
      (∀ n, n ≠ slot → slotAt t n = slotAt s n) ∧
      t = settle
        { s with
          keys := t.keys, decoder := { state := .idle, inHand := none, change := none }
          ring := ringFilling h.request .done
            [BitVec.ofNat 8 slot, BitVec.ofNat 8 (keyRoleCode e.role), BitVec.ofNat 8 e.version,
              if isLock then 2 else 1] s.ring }

/-- A request whose code names none is answered UNKNOWN and has no effect; one without a code, or whose
length is not that of its code, is answered BAD_VALUE; any request that reaches a decoder which is not
IDLE is answered BUSY and is not judged. Which command carries a request of length 0 is the model's choice (log
26). -/
def Obligations.UnknownBadLengthAndBusy : Prop :=
  ∀ (r : Request) (f : RingFrame) (keyload : Bool) (s : State), s.power = .running →
    answerUsed s.ring < 4 → receives s f = true → strips s f = false → takesRequest s f = true →
    (requestOf (numOf f.payload 1 1) = none →
      exec (.unknownRequest f) s = .next (settle
        { s with
          ring :=
            { ringPassing f s.ring with
              filled := s.ring.filled ++
                [answerFrame s.ring.gateNo (BitVec.ofNat 8 (numOf f.payload 1 1))
                  (if s.decoder.state ≠ .idle then .busy
                  else if f.payload = [] then .badValue else .unknown) []] } })) ∧
    (requestOf (numOf f.payload 1 1) = some r →
      let pin := if isOpenRequest r then s.keyload else keyload
      (s.decoder.state ≠ .idle →
        exec (requestCommand r f keyload) s = .next (settle
          { s with keyload := pin, ring := ringAnswering r .busy [] (ringPassing f s.ring) })) ∧
      (s.decoder.state = .idle → requestLengthGood r f.payload = false →
        exec (requestCommand r f keyload) s = .next (settle
          { s with
            keyload := pin, ring := ringAnswering r .badValue [] (ringPassing f s.ring)
            decoder := decoderIdle s.decoder })))

/-- A protected request is judged before its owner: without a line key and without KEYLOAD it is
UNPROTECTED; with a line key, unset or a request time more than 10 s off line time is STALE, and a fresh
one stays in hand while the ring engine computes its line code under that key. -/
def Obligations.ProtectionComesBeforeTheOwner : Prop :=
  ∀ (r : Request) (f : RingFrame) (keyload : Bool) (s : State), Judged r f s →
    isOpenRequest r = false →
    let time := numOf f.payload 2 5
    let answered := fun code => settle
      { s with
        keyload := keyload, ring := ringAnswering r code [] (ringPassing f s.ring)
        decoder := decoderIdle s.decoder }
    (lineKey s = none → keyload = false →
      exec (requestCommand r f keyload) s = .next (answered .unprotected)) ∧
    (∀ key, lineKey s = some key →
      (s.clock.isSet = false ∨ s.clock.lineTime + 10 < time ∨ time + 10 < s.clock.lineTime) →
      exec (requestCommand r f keyload) s = .next (answered .stale)) ∧
    (∀ key, lineKey s = some key → s.clock.isSet = true → time ≤ s.clock.lineTime + 10 →
      s.clock.lineTime ≤ time + 10 →
      exec (requestCommand r f keyload) s = .next (settle
        { s with
          keyload := keyload, ringEngine := some (.lineCode key)
          ring := { ringPassing f s.ring with held := s.ring.held + 1 }
          decoder :=
            { s.decoder with
              state := .working, inHand := some (inHandOf r (frameDest f) f.payload) } }))

/-- CODE_ENGINE_DONE at the ring engine: a line code that does not verify is UNPROTECTED; one that does
leaves a KEY_WRITE or KEY_LOCK without KEYLOAD at NO_STRAP, and hands every other request, as coded, to its
owner: a RESTART is answered DONE, a COUNTERS_CLEAR with the counters, a KEY_WRITE asks its change, and a
LOAD_END of a complete image the first read for its table code, which the engine computes from there under
the line key of that instant. That a table code whose reads are still to come has no result, and the event
then does nothing, is the model's choice (log 3). One that verifies over the image read asks the first read
of the contents check; one that fails is TABLE_INVALID, and the load is broken off. What its discarded
destination then holds is the model's choice (logs 54, 57 and 59). -/
def Obligations.RingEngineResultIsJudged : Prop :=
  ∀ (h : InHand) (key : Key) (keyload : Bool) (s : State), s.power = .running →
    s.decoder.inHand = some h →
    let coded := { h with coded := true }
    let idle : State := { s with keyload := keyload, ringEngine := none }
    let next := fun t => exec (.codeEngineDone .ring keyload) s = .next (settle t)
    (s.ringEngine = some (.lineCode key) → h.code ≠ codeOf 8 key (lineCodeInput h) →
      next
        { idle with
          decoder := decoderIdle s.decoder
          ring := ringFilling h.request .unprotected [] s.ring }) ∧
    (s.ringEngine = some (.lineCode key) → h.code = codeOf 8 key (lineCodeInput h) →
      (h.request ∈ [Request.keyWrite, .keyLock] → keyload = false →
        next
          { idle with
            decoder := decoderIdle s.decoder, ring := ringFilling h.request .noStrap [] s.ring }) ∧
      ((h.request ∉ [Request.keyWrite, .keyLock] ∨ keyload = true) →
        next (ownRequest coded idle)) ∧
      (h.request = .restart →
        next
          { idle with
            decoder := { decoderIdle s.decoder with state := .restartPending }
            ring := ringFilling .restart .done [] s.ring }) ∧
      (h.request = .countersClear →
        next
          { idle with
            decoder := decoderIdle s.decoder
            ring := ringFilling .countersClear .done (countersData s.journal.counters) s.ring
            journal := { s.journal with counters := Counters.zero } }) ∧
      (∀ role, h.request = .keyWrite → keyload = true → numOf h.params 1 1 ≤ 7 →
        (∀ e, slotAt s (numOf h.params 1 1) ≠ .locked e) →
        keyRoleOf (numOf h.params 2 2) = some role →
        next
          { idle with
            decoder :=
              { s.decoder with
                state := .working, inHand := some coded
                change := some
                  ⟨numOf h.params 1 1,
                    .loaded
                      ⟨BitVec.ofNat 128 (numOf h.params 4 19), role, numOf h.params 3 3⟩⟩ } }) ∧
      (∀ l k, h.request = .loadEnd → s.loader = some l → l.received = l.length →
        lineKey s = some k →
        next
          { idle with
            decoder := { s.decoder with state := .working, inHand := some coded }
            ringEngine := some (.tableCode k [])
            loader := some { l with phase := .code 0 }
            arb := { s.arb with loader := some .read } })) ∧
    (∀ l read, s.ringEngine = some (.tableCode key read) → s.loader = some l →
      (l.phase ≠ .coding → next { s with keyload := keyload }) ∧
      (l.phase = .coding → h.params = codeOf 8 key (tableCodeInput l.kind l.length read) →
        next
          { idle with
            loader := some { l with phase := .contents 0 }
            arb := { s.arb with loader := some .read } }) ∧
      (l.phase = .coding → h.params ≠ codeOf 8 key (tableCodeInput l.kind l.length read) →
        next (requestAnswered .loadEnd .tableInvalid (loadDiscarded l idle))))

/-! ### Starts, restarts and power -/

/-- WARM_RESTART, at the end of the RESTART answer: both transactions are over, every grant withdrawn and
every reservation released, the decoder, the loader and the Merge Engine IDLE, and repeater mode stands for
2 ms; line time, ring state, sent list, alarm, hotlist version, line setup record and keys are kept. A
transaction before WRITING is abandoned with the REFUSED record of CARD_LOST, its INTENT withdrawn, which in
CLAIMING gives a displaced sighting back, and its context given back, which expires with its TORN record
when its overdue mark is set; one in WRITING or CONFIRMING leaves a tear context and its TORN; one in
FINISHING of an exit leaves its record closed with HISTORY_MISSED; and each grant withdrawn leaves its
UNUSED record and sighting, the head's first. These are the model's choices: that the displaced sighting
comes back with its own older contested flag (log 52), the order of a tear's hand-offs (log 16), that an
overdue context's TORN record follows the REFUSED (log 41), that side A's transaction ends before side B's
(log 38), and that RING_OUT_FRAME_END of that answer is the same event (log 28). The contents of a bank left
EMPTY are its choice too (log 57). So are, of what a sighting finds, a transaction that has asked HALT being
in flight no more (log 50), the free reason of a double reuse's notice (log 8), and a table full of pinned
entries that stays as it is (log 37). -/
def Obligations.WarmRestartActsOnEveryBlock : Prop :=
  ∀ (x : RingFrame) (s : State), s.power = .running → s.decoder.state = .restartPending →
    s.decoder.change = none → s.ring.sending = some ⟨x, .answer⟩ → x.payload = [7, 0] →
    s.ring.sent.length < 16 →
    ∃ t, exec .warmRestart s = .next t ∧ exec .ringOutFrameEnd s = .next t ∧
      t.taps = ⟨Tap.cold, Tap.cold⟩ ∧ t.engines = ⟨none, none⟩ ∧ t.ringEngine = none ∧
      t.decoder = { state := .idle, inHand := none, change := none } ∧ t.loader = none ∧
      t.hot.merge = .idle ∧ t.arb.inUse = none ∧ t.gate.queue = [] ∧ t.gate.reserved = 0 ∧
      t.gate.passTimer = .stopped ∧ t.gate.stopTimer = ⟨none, none⟩ ∧
      t.gate.alarm = s.gate.alarm ∧ t.gate.freeFlag = s.gate.freeFlag ∧
      t.gate.occupancy = s.gate.occupancy ∧ t.journal.reserved = 0 ∧
      t.ring.repeater = true ∧ t.ring.restartPeriod = some 2 ∧ t.ring.forward = [] ∧
      t.ring.filled = [] ∧ t.ring.held = 0 ∧ t.ring.intentReserved = 0 ∧ t.ring.sending = none ∧
      t.ring.gateNo = s.ring.gateNo ∧ t.ring.joined = s.ring.joined ∧ t.ring.watch = s.ring.watch ∧
      t.ring.duplicate = s.ring.duplicate ∧
      t.ring.sent = s.ring.sent ++
        [{ kind := x.kind, length := x.payload.length, crc := x.crc, sentAt := s.clock.localMs }] ∧
      t.clock = s.clock ∧ t.keys = s.keys ∧ t.store.setup = s.store.setup ∧
      t.hot.version = s.hot.version ∧ activeEntries t.hot = activeEntries s.hot ∧
      (∀ sd, (s.chans.get sd).state ≠ .off → sideEnabled t sd = true →
        t.chans.get sd =
          { state := .awaitRemoval, outstanding := none, answerTimer := none, pollTimer := some 10
            fieldEmpty := some 0, lost := false }) ∧
      (s.loader = none → ∀ id, bankOf t.store id =
        if (bankOf s.store id).state = .draining then Bank.cold
        else { bankOf s.store id with refs := 0 }) ∧
      (s.taps = ⟨Tap.cold, Tap.cold⟩ → s.gate.queue = [] →
        t.journal.records = s.journal.records ∧ t.journal.counters = s.journal.counters ∧
        t.sightings = s.sightings ∧ t.contexts = s.contexts ∧
        t.ring.insertion = s.ring.insertion) ∧
      (∀ u v w,
        Restarts .a
          { s with
            ring :=
              { s.ring with
                sending := none
                sent := s.ring.sent ++
                  [{ kind := x.kind, length := x.payload.length, crc := x.crc
                     sentAt := s.clock.localMs }] } } u →
        Restarts .b u v →
        GrantsWithdrawn false { v with gate := { v.gate with queue := [] } } s.gate.queue w →
        t.contexts = w.contexts ∧ t.journal = { w.journal with reserved := 0 } ∧
        t.sightings = w.sightings ∧ t.ring.insertion = w.ring.insertion ∧
        (w.hot.waiting = [] → t.hot.localList = w.hot.localList))

/-- RESTART_PERIOD_EXPIRY and REPEATER_MODE_EXIT end repeater mode where no cause of it stands and no frame
is passing; RST_ASSERTED holds the part in repeater mode and cuts off a frame on ring-out; POWER_LOSS keeps
the key slots alone, a slot whose change is under way holding its contents from before or after it (a free
value, log 7). The model's choices: that a frame passing at the end of the period is an operand (log 23),
that RST and a loss of power are taken in every power state (log 24), and what the items and outputs read
while RST is held and without power (log 36). -/
def Obligations.RepeaterModeResetAndPower : Prop :=
  ∀ (passing : Bool) (s : State),
    (s.power = .running → s.ring.restartPeriod.isSome →
      exec (.restartPeriodExpiry passing) s = .next (settle
        { s with
          ring :=
            { s.ring with
              restartPeriod := none, repeater := decide (s.ring.gateNo = 0) || passing } })) ∧
    (s.power = .running →
      exec .repeaterModeExit s = .next (settle
        (if s.ring.gateNo = 0 ∨ s.ring.restartPeriod.isSome then s
        else { s with ring := { s.ring with repeater := false } }))) ∧
    (s.decoder.change = none →
      exec .rstAsserted s = .next
        { s with power := .held, ring := { s.ring with repeater := true, sending := none } } ∧
      exec .powerLoss s = .next
        { State.reset with
          power := .off, pending := s.pending, emerg := s.emerg, keyload := s.keyload, keys := s.keys
          draws := s.draws }) ∧
    (∀ c, s.decoder.change = some c → c.slot ≤ 7 → (∀ e, slotAt s c.slot ≠ .locked e) →
      ∃ t u, exec .powerLoss s = .next t ∧ exec .rstAsserted s = .next u ∧
        t.power = .off ∧ u.power = .held ∧
        (slotAt t c.slot = slotAt s c.slot ∨ slotAt t c.slot = c.after) ∧
        (∀ n, n ≠ c.slot → slotAt t n = slotAt s n) ∧ u.keys = t.keys)

/-- COLD_START: the Gate Controller after it, in every item, with the gate number sampled, line time unset,
every table, bank, list and queue empty, and the key slots kept while none is being changed. The
out-of-service conditions are those of every state. The model's choices: that a cold start is taken in every
power state (log 24), and that a frame passing on ring-in is an operand (log 23). So are the contents of the
EMPTY fare banks (log 57) and of the FREE shadow, hotlist bank 1 (log 59). -/
def Obligations.ColdStartState : Prop :=
  (∀ (gateNo : BitVec 4) (passing : Bool) (s : State),
    ∃ t, exec (.coldStart gateNo passing) s = .next t ∧
      gateState t = (if s.emerg then .free else .outOfService) ∧
      t.gate.leaf = (if s.emerg then .free else .close) ∧ t.gate.alarm = none ∧
      t.gate.freeFlag = false ∧ t.gate.queue = [] ∧ t.gate.reserved = 0 ∧ t.gate.occupancy = 0 ∧
      t.gate.passTimer = .stopped ∧ t.gate.stopTimer = ⟨none, none⟩ ∧
      t.gate.indicator = (if s.emerg then ⟨.free, .free⟩ else ⟨.closed, .closed⟩) ∧
      t.emerg = s.emerg ∧ (s.decoder.change = none → t.keys = s.keys) ∧ t.power = .running ∧
      t.ring.gateNo = gateNo.toNat ∧
      t.ring.repeater = (decide (gateNo.toNat = 0) || passing) ∧ t.ring.joined = false ∧
      t.ring.watch = none ∧ t.ring.sent = [] ∧ t.ring.duplicate = false ∧
      t.clock.isSet = false ∧ t.clock.lineTime = 0 ∧ t.chans = ⟨Channel.cold, Channel.cold⟩ ∧
      t.taps = ⟨Tap.cold, Tap.cold⟩ ∧ t.contexts = [] ∧ t.sightings = [] ∧ t.loader = none ∧
      t.decoder.state = .idle ∧ t.journal.records = [] ∧ t.journal.counters = Counters.zero ∧
      t.journal.reserved = 0 ∧ t.journal.nextSequence = 0 ∧
      t.store = ⟨Bank.cold, Bank.cold, none, none⟩ ∧ t.hot.bank0 = [] ∧ t.hot.bank1 = [] ∧
      t.hot.version = 0 ∧ t.hot.shadow = .free ∧ t.hot.deltaCond = .absent ∧
      t.hot.deltaOps = [] ∧ t.hot.merge = .idle ∧ t.hot.localList = [] ∧
      t.hot.localFull = false ∧ t.hot.waiting = [] ∧ t.ring.forward = [] ∧
      t.ring.insertion = [] ∧ t.ring.intentReserved = 0 ∧ t.ring.held = 0 ∧
      t.ring.filled = [] ∧ t.ring.sending = none ∧ t.engines = ⟨none, none⟩ ∧
      t.ringEngine = none ∧ t.decoder.inHand = none ∧
      t.arb =
        { tap := ⟨none, none⟩, loader := none, merge := false, inUse := none, mark := .a }) ∧
  (∀ u : State, gateState u = .outOfService ↔
    u.emerg = false ∧ u.gate.freeFlag = false ∧
      ((bankOf u.store .x).state ≠ .active ∧ (bankOf u.store .y).state ≠ .active ∨
        u.clock.isSet = false ∨ u.store.setup = none ∨
        u.store.setup.map LineSetup.service = some .outService ∨ u.ring.duplicate = true))

/-! ### Rules of single units -/

/-- The Fare Unit and the Record Composer. The rounded fare: above the half unit up, at or below it down, a
whole multiple of the unit of at most 40,000 cents. The band of a minute: the last one started, and the last
of the table before the first start. An entry while IN is refused PASSBACK, or pays the incomplete-journey
penalty; while OUT it continues the chain or begins a new one; and the entry minimum is then judged. An
exit while OUT pays the penalty, and while IN the fare: clamp, base, factors, rounding, continuation, ceiling
and cap, and then the overdraft limit is judged. The record of each plan in every field, the history entry
of an exit, and the limits of R66. -/
def Obligations.FareIsRounded : Prop :=
  (∀ (product unit : Nat), unit ∈ [1, 2, 5, 10, 20, 50, 100] →
    let d := 10000 * unit
    (2 * (product % d) > d → roundFare product unit = (product / d + 1) * unit) ∧
    (2 * (product % d) = d → roundFare product unit = product / d * unit) ∧
    (2 * (product % d) < d → roundFare product unit = product / d * unit) ∧
    unit ∣ roundFare product unit ∧
    (product ≤ 20000 * 200 * 100 → roundFare product unit ≤ 40000)) ∧
  (∀ (bands : List Band) (m n : Nat) (b : Band),
    (bands.map Band.start).Pairwise (· < ·) → bands[n]? = some b →
    (b.start ≤ m → (∀ c, bands[n + 1]? = some c → m < c.start) → bandAt bands m = n) ∧
    (n = 0 → m < b.start → bandAt bands m = bands.length - 1)) ∧
  ∀ i : FareInput,
    let card := i.card
    let table := i.table
    let cls := table.classes.getD i.cls ⟨0, 0, 0⟩
    let day := if table.dayStart ≤ i.now then (i.now - table.dayStart) / 1440 else 0
    let base := if card.dayNumber = day then card.dayAccumulated else 0
    let capped := fun x => if cls.dailyCap = 0 then x else min x (cls.dailyCap - base)
    let penalty := capped table.incompleteFare
    let accepts := fun plan (charge : Nat) flags =>
      fareUnit i = .accept ⟨plan, charge, card.balance - (charge : Int), flags⟩
    let enters := fun plan (charge : Nat) flags =>
      if card.balance - (charge : Int) < (cls.entryMinimum : Int) then
        fareUnit i = .refusal .lowBalance
      else accepts plan charge flags
    let leaves := fun plan (charge : Nat) flags =>
      if card.balance - (charge : Int) < -(table.overdraft : Int) then
        fareUnit i = .refusal .insufficient
      else accepts plan charge flags
    let penaltyFlags : FareFlags := ⟨false, decide (penalty < table.incompleteFare), true, false⟩
    (i.side = .a → card.state = journeyIn →
      let elapsed := if card.entryTime ≤ i.now then i.now - card.entryTime else 0
      if card.entryStation = i.station ∧ elapsed < table.passback then
        fareUnit i = .refusal .passback
      else enters .entryPenalty penalty penaltyFlags) ∧
    (i.side = .a → card.state ≠ journeyIn →
      if 0 < table.transferWindow ∧ card.legs < table.maxLegs ∧ card.lastExit ≤ i.now ∧
          i.now - card.lastExit ≤ table.transferWindow then
        enters .entryTransfer 0 ⟨false, false, false, true⟩
      else enters .entryNew 0 ⟨false, false, false, false⟩) ∧
    (i.side = .b → card.state ≠ journeyIn → leaves .exitPenalty penalty penaltyFlags) ∧
    (i.side = .b → card.state = journeyIn → 1 ≤ table.zones → 1 ≤ table.bandCount →
      let origin := if card.originZone < table.zones then card.originZone else table.zones - 1
      let exit := if i.zone < table.zones then i.zone else table.zones - 1
      let band := if card.originBand < table.bandCount then card.originBand else table.bandCount - 1
      let row := min origin exit
      let fare := table.matrix.getD
        (row * table.zones - row * (row - 1) / 2 + (max origin exit - row)) 0
      let factor := (table.bands.getD band ⟨0, 0⟩).factor
      let rounded := roundFare (fare * factor * (100 - cls.concession)) table.unit
      let ceiled := min (rounded - card.chainPaid) table.maxFare
      leaves .exitFare (capped ceiled)
        ⟨decide (origin ≠ card.originZone ∨ exit ≠ i.zone ∨ band ≠ card.originBand),
          decide (capped ceiled < ceiled), false, decide (2 ≤ card.legs)⟩) ∧
    (∀ a, fareUnit i = .accept a →
      let record := composeJourney i a
      let rolled : Journey :=
        { card with
          tc := card.tc + 1, balance := card.balance - (a.charge : Int)
          dayAccumulated := min (base + a.charge) 65535, dayNumber := day, format := 1 }
      let entered : Journey :=
        { rolled with state := journeyIn, entryStation := i.station, entryTime := i.now }
      let begun : Journey :=
        { entered with
          legs := 1, originZone := i.zone, originBand := bandAt table.bands (i.now % 1440)
          chainPaid := 0 }
      let left : Journey := { rolled with state := journeyOut, lastExit := i.now }
      (a.plan = .entryNew ∨ a.plan = .entryPenalty → i.side = .a ∧ record = begun) ∧
      (a.plan = .entryTransfer → i.side = .a ∧ record = { entered with legs := card.legs + 1 }) ∧
      (a.plan = .exitFare →
        i.side = .b ∧ record = { left with chainPaid := min (card.chainPaid + a.charge) 65535 }) ∧
      (a.plan = .exitPenalty → i.side = .b ∧ record = { left with legs := 0, chainPaid := 0 }) ∧
      (i.side = .b →
        historyFields i a =
          { kind := if a.plan = .exitPenalty then 3 else 2, station := i.station, time := i.now
            amount := a.charge, balanceAfter := record.balance, tcAfter := record.tc }) ∧
      (table.incompleteFare ≤ table.maxFare → a.charge ≤ table.maxFare) ∧
      (cls.dailyCap ≠ 0 → a.charge ≤ cls.dailyCap - base) ∧
      record.balance = a.balanceAfter ∧ record.balance ≤ card.balance ∧
      (i.side = .a → 0 ≤ record.balance) ∧
      (i.side = .b → -(table.overdraft : Int) ≤ record.balance) ∧
      (card.chainPaid ≤ 65535 → record.chainPaid ≤ 65535) ∧ record.dayAccumulated ≤ 65535 ∧
      (card.legs ≤ 3 → table.maxLegs ≤ 3 → record.legs ≤ 3))

/-- The clone check of a transaction of card TC `t` and source `src` against a sighting that stands: when
it finds, and with which reason; a contested entry at CLAIMING entry always finds. That a COMMIT of result
t + 1 gives SAME_STATE by R98, against the worked example's STATE_BEHIND, is the model's reading (log
35). -/
def Obligations.CloneCheckFinds : Prop :=
  ∀ (t : Nat) (src : Source) (x : Sighting),
    (x.kind = .commit →
      (cloneCheck t src x = none ↔ x.result ≤ t) ∧
      (t < x.result →
        cloneCheck t src x = some (if x.result = t + 1 then .sameState else .stateBehind))) ∧
    (x.kind = .torn →
      cloneCheck t src x = if t < x.base then some .stateBehind else none) ∧
    (x.kind = .unused →
      cloneCheck t src x = if t < x.result then some .stateBehind else none) ∧
    (x.kind = .intent →
      cloneCheck t src x = if x.source ≠ src ∧ t ≤ x.base then some .contest else none) ∧
    claimCheck t src ⟨x, false⟩ = cloneCheck t src x ∧
    claimCheck t src ⟨x, true⟩ = some
      (if x.kind = .intent then .contest
      else if x.kind = .commit ∧ x.result = t + 1 then .sameState
      else .stateBehind) ∧
    (∀ (s : State) (sd : Side) (d : Decision), (s.taps.get sd).record.decision = some d →
      checkedTc s sd = d.baseTc)
end

