-- ==== Sys2Proof/Laws/State.lean ====
section
/-! SUPPORT. The small lemmas of State: what each update of one block leaves in each field, one lemma for
each field and update, and the two sides of a pair. -/

namespace Sys2Proof

@[simp] theorem Side.other_other (sd : Side) : sd.other.other = sd := by cases sd <;> rfl

@[simp] theorem Side.other_ne (sd : Side) : sd.other ≠ sd := by cases sd <;> decide

@[simp] theorem Side.ne_other (sd : Side) : sd ≠ sd.other := by cases sd <;> decide

@[simp] theorem Sided.get_set_same {α : Type} (p : Sided α) (sd : Side) (x : α) :
    (p.set sd x).get sd = x := by cases sd <;> rfl

@[simp] theorem Sided.get_set_other {α : Type} (p : Sided α) (sd : Side) (x : α) :
    (p.set sd x).get sd.other = p.get sd.other := by cases sd <;> rfl

@[simp] theorem Sided.get_other_set {α : Type} (p : Sided α) (sd : Side) (x : α) :
    (p.set sd.other x).get sd = p.get sd := by cases sd <;> rfl

theorem Sided.get_set {α : Type} (p : Sided α) (sd d : Side) (x : α) :
    (p.set sd x).get d = if d = sd then x else p.get d := by cases sd <;> cases d <;> rfl

@[simp] theorem Sided.set_get {α : Type} (p : Sided α) (sd : Side) : p.set sd (p.get sd) = p := by
  cases sd <;> rfl

@[simp] theorem Sided.set_set {α : Type} (p : Sided α) (sd : Side) (x y : α) :
    (p.set sd x).set sd y = p.set sd y := by cases sd <;> rfl

end Sys2Proof

namespace Sys2Proof.Machine

/-! ### setChan -/

@[simp] theorem setChan_pending (sd : Side) (c : Channel) (s : State) :
    (setChan sd c s).pending = s.pending := rfl
@[simp] theorem setChan_power (sd : Side) (c : Channel) (s : State) :
    (setChan sd c s).power = s.power := rfl
@[simp] theorem setChan_emerg (sd : Side) (c : Channel) (s : State) :
    (setChan sd c s).emerg = s.emerg := rfl
@[simp] theorem setChan_keyload (sd : Side) (c : Channel) (s : State) :
    (setChan sd c s).keyload = s.keyload := rfl
@[simp] theorem setChan_chans (sd : Side) (c : Channel) (s : State) :
    (setChan sd c s).chans = s.chans.set sd c := rfl
@[simp] theorem setChan_taps (sd : Side) (c : Channel) (s : State) :
    (setChan sd c s).taps = s.taps := rfl
@[simp] theorem setChan_engines (sd : Side) (c : Channel) (s : State) :
    (setChan sd c s).engines = s.engines := rfl
@[simp] theorem setChan_ringEngine (sd : Side) (c : Channel) (s : State) :
    (setChan sd c s).ringEngine = s.ringEngine := rfl
@[simp] theorem setChan_contexts (sd : Side) (c : Channel) (s : State) :
    (setChan sd c s).contexts = s.contexts := rfl
@[simp] theorem setChan_sightings (sd : Side) (c : Channel) (s : State) :
    (setChan sd c s).sightings = s.sightings := rfl
@[simp] theorem setChan_hot (sd : Side) (c : Channel) (s : State) :
    (setChan sd c s).hot = s.hot := rfl
@[simp] theorem setChan_store (sd : Side) (c : Channel) (s : State) :
    (setChan sd c s).store = s.store := rfl
@[simp] theorem setChan_loader (sd : Side) (c : Channel) (s : State) :
    (setChan sd c s).loader = s.loader := rfl
@[simp] theorem setChan_arb (sd : Side) (c : Channel) (s : State) :
    (setChan sd c s).arb = s.arb := rfl
@[simp] theorem setChan_gate (sd : Side) (c : Channel) (s : State) :
    (setChan sd c s).gate = s.gate := rfl
@[simp] theorem setChan_ring (sd : Side) (c : Channel) (s : State) :
    (setChan sd c s).ring = s.ring := rfl
@[simp] theorem setChan_clock (sd : Side) (c : Channel) (s : State) :
    (setChan sd c s).clock = s.clock := rfl
@[simp] theorem setChan_decoder (sd : Side) (c : Channel) (s : State) :
    (setChan sd c s).decoder = s.decoder := rfl
@[simp] theorem setChan_journal (sd : Side) (c : Channel) (s : State) :
    (setChan sd c s).journal = s.journal := rfl
@[simp] theorem setChan_keys (sd : Side) (c : Channel) (s : State) :
    (setChan sd c s).keys = s.keys := rfl
@[simp] theorem setChan_draws (sd : Side) (c : Channel) (s : State) :
    (setChan sd c s).draws = s.draws := rfl

/-! ### setTap -/

@[simp] theorem setTap_pending (sd : Side) (t : Tap) (s : State) :
    (setTap sd t s).pending = s.pending := rfl
@[simp] theorem setTap_power (sd : Side) (t : Tap) (s : State) :
    (setTap sd t s).power = s.power := rfl
@[simp] theorem setTap_emerg (sd : Side) (t : Tap) (s : State) :
    (setTap sd t s).emerg = s.emerg := rfl
@[simp] theorem setTap_keyload (sd : Side) (t : Tap) (s : State) :
    (setTap sd t s).keyload = s.keyload := rfl
@[simp] theorem setTap_chans (sd : Side) (t : Tap) (s : State) :
    (setTap sd t s).chans = s.chans := rfl
@[simp] theorem setTap_taps (sd : Side) (t : Tap) (s : State) :
    (setTap sd t s).taps = s.taps.set sd t := rfl
@[simp] theorem setTap_engines (sd : Side) (t : Tap) (s : State) :
    (setTap sd t s).engines = s.engines := rfl
@[simp] theorem setTap_ringEngine (sd : Side) (t : Tap) (s : State) :
    (setTap sd t s).ringEngine = s.ringEngine := rfl
@[simp] theorem setTap_contexts (sd : Side) (t : Tap) (s : State) :
    (setTap sd t s).contexts = s.contexts := rfl
@[simp] theorem setTap_sightings (sd : Side) (t : Tap) (s : State) :
    (setTap sd t s).sightings = s.sightings := rfl
@[simp] theorem setTap_hot (sd : Side) (t : Tap) (s : State) : (setTap sd t s).hot = s.hot := rfl
@[simp] theorem setTap_store (sd : Side) (t : Tap) (s : State) :
    (setTap sd t s).store = s.store := rfl
@[simp] theorem setTap_loader (sd : Side) (t : Tap) (s : State) :
    (setTap sd t s).loader = s.loader := rfl
@[simp] theorem setTap_arb (sd : Side) (t : Tap) (s : State) : (setTap sd t s).arb = s.arb := rfl
@[simp] theorem setTap_gate (sd : Side) (t : Tap) (s : State) : (setTap sd t s).gate = s.gate := rfl
@[simp] theorem setTap_ring (sd : Side) (t : Tap) (s : State) : (setTap sd t s).ring = s.ring := rfl
@[simp] theorem setTap_clock (sd : Side) (t : Tap) (s : State) :
    (setTap sd t s).clock = s.clock := rfl
@[simp] theorem setTap_decoder (sd : Side) (t : Tap) (s : State) :
    (setTap sd t s).decoder = s.decoder := rfl
@[simp] theorem setTap_journal (sd : Side) (t : Tap) (s : State) :
    (setTap sd t s).journal = s.journal := rfl
@[simp] theorem setTap_keys (sd : Side) (t : Tap) (s : State) : (setTap sd t s).keys = s.keys := rfl
@[simp] theorem setTap_draws (sd : Side) (t : Tap) (s : State) :
    (setTap sd t s).draws = s.draws := rfl

/-! ### setEngine -/

@[simp] theorem setEngine_pending (sd : Side) (j : Option ChanJob) (s : State) :
    (setEngine sd j s).pending = s.pending := rfl
@[simp] theorem setEngine_power (sd : Side) (j : Option ChanJob) (s : State) :
    (setEngine sd j s).power = s.power := rfl
@[simp] theorem setEngine_emerg (sd : Side) (j : Option ChanJob) (s : State) :
    (setEngine sd j s).emerg = s.emerg := rfl
@[simp] theorem setEngine_keyload (sd : Side) (j : Option ChanJob) (s : State) :
    (setEngine sd j s).keyload = s.keyload := rfl
@[simp] theorem setEngine_chans (sd : Side) (j : Option ChanJob) (s : State) :
    (setEngine sd j s).chans = s.chans := rfl
@[simp] theorem setEngine_taps (sd : Side) (j : Option ChanJob) (s : State) :
    (setEngine sd j s).taps = s.taps := rfl
@[simp] theorem setEngine_engines (sd : Side) (j : Option ChanJob) (s : State) :
    (setEngine sd j s).engines = s.engines.set sd j := rfl
@[simp] theorem setEngine_ringEngine (sd : Side) (j : Option ChanJob) (s : State) :
    (setEngine sd j s).ringEngine = s.ringEngine := rfl
@[simp] theorem setEngine_contexts (sd : Side) (j : Option ChanJob) (s : State) :
    (setEngine sd j s).contexts = s.contexts := rfl
@[simp] theorem setEngine_sightings (sd : Side) (j : Option ChanJob) (s : State) :
    (setEngine sd j s).sightings = s.sightings := rfl
@[simp] theorem setEngine_hot (sd : Side) (j : Option ChanJob) (s : State) :
    (setEngine sd j s).hot = s.hot := rfl
@[simp] theorem setEngine_store (sd : Side) (j : Option ChanJob) (s : State) :
    (setEngine sd j s).store = s.store := rfl
@[simp] theorem setEngine_loader (sd : Side) (j : Option ChanJob) (s : State) :
    (setEngine sd j s).loader = s.loader := rfl
@[simp] theorem setEngine_arb (sd : Side) (j : Option ChanJob) (s : State) :
    (setEngine sd j s).arb = s.arb := rfl
@[simp] theorem setEngine_gate (sd : Side) (j : Option ChanJob) (s : State) :
    (setEngine sd j s).gate = s.gate := rfl
@[simp] theorem setEngine_ring (sd : Side) (j : Option ChanJob) (s : State) :
    (setEngine sd j s).ring = s.ring := rfl
@[simp] theorem setEngine_clock (sd : Side) (j : Option ChanJob) (s : State) :
    (setEngine sd j s).clock = s.clock := rfl
@[simp] theorem setEngine_decoder (sd : Side) (j : Option ChanJob) (s : State) :
    (setEngine sd j s).decoder = s.decoder := rfl
@[simp] theorem setEngine_journal (sd : Side) (j : Option ChanJob) (s : State) :
    (setEngine sd j s).journal = s.journal := rfl
@[simp] theorem setEngine_keys (sd : Side) (j : Option ChanJob) (s : State) :
    (setEngine sd j s).keys = s.keys := rfl
@[simp] theorem setEngine_draws (sd : Side) (j : Option ChanJob) (s : State) :
    (setEngine sd j s).draws = s.draws := rfl

/-! ### modHot -/

@[simp] theorem modHot_pending (f : Hotlist → Hotlist) (s : State) :
    (modHot f s).pending = s.pending := rfl
@[simp] theorem modHot_power (f : Hotlist → Hotlist) (s : State) :
    (modHot f s).power = s.power := rfl
@[simp] theorem modHot_emerg (f : Hotlist → Hotlist) (s : State) :
    (modHot f s).emerg = s.emerg := rfl
@[simp] theorem modHot_keyload (f : Hotlist → Hotlist) (s : State) :
    (modHot f s).keyload = s.keyload := rfl
@[simp] theorem modHot_chans (f : Hotlist → Hotlist) (s : State) :
    (modHot f s).chans = s.chans := rfl
@[simp] theorem modHot_taps (f : Hotlist → Hotlist) (s : State) : (modHot f s).taps = s.taps := rfl
@[simp] theorem modHot_engines (f : Hotlist → Hotlist) (s : State) :
    (modHot f s).engines = s.engines := rfl
@[simp] theorem modHot_ringEngine (f : Hotlist → Hotlist) (s : State) :
    (modHot f s).ringEngine = s.ringEngine := rfl
@[simp] theorem modHot_contexts (f : Hotlist → Hotlist) (s : State) :
    (modHot f s).contexts = s.contexts := rfl
@[simp] theorem modHot_sightings (f : Hotlist → Hotlist) (s : State) :
    (modHot f s).sightings = s.sightings := rfl
@[simp] theorem modHot_hot (f : Hotlist → Hotlist) (s : State) : (modHot f s).hot = f s.hot := rfl
@[simp] theorem modHot_store (f : Hotlist → Hotlist) (s : State) :
    (modHot f s).store = s.store := rfl
@[simp] theorem modHot_loader (f : Hotlist → Hotlist) (s : State) :
    (modHot f s).loader = s.loader := rfl
@[simp] theorem modHot_arb (f : Hotlist → Hotlist) (s : State) : (modHot f s).arb = s.arb := rfl
@[simp] theorem modHot_gate (f : Hotlist → Hotlist) (s : State) : (modHot f s).gate = s.gate := rfl
@[simp] theorem modHot_ring (f : Hotlist → Hotlist) (s : State) : (modHot f s).ring = s.ring := rfl
@[simp] theorem modHot_clock (f : Hotlist → Hotlist) (s : State) :
    (modHot f s).clock = s.clock := rfl
@[simp] theorem modHot_decoder (f : Hotlist → Hotlist) (s : State) :
    (modHot f s).decoder = s.decoder := rfl
@[simp] theorem modHot_journal (f : Hotlist → Hotlist) (s : State) :
    (modHot f s).journal = s.journal := rfl
@[simp] theorem modHot_keys (f : Hotlist → Hotlist) (s : State) : (modHot f s).keys = s.keys := rfl
@[simp] theorem modHot_draws (f : Hotlist → Hotlist) (s : State) :
    (modHot f s).draws = s.draws := rfl

/-! ### modStore -/

@[simp] theorem modStore_pending (f : TableStore → TableStore) (s : State) :
    (modStore f s).pending = s.pending := rfl
@[simp] theorem modStore_power (f : TableStore → TableStore) (s : State) :
    (modStore f s).power = s.power := rfl
@[simp] theorem modStore_emerg (f : TableStore → TableStore) (s : State) :
    (modStore f s).emerg = s.emerg := rfl
@[simp] theorem modStore_keyload (f : TableStore → TableStore) (s : State) :
    (modStore f s).keyload = s.keyload := rfl
@[simp] theorem modStore_chans (f : TableStore → TableStore) (s : State) :
    (modStore f s).chans = s.chans := rfl
@[simp] theorem modStore_taps (f : TableStore → TableStore) (s : State) :
    (modStore f s).taps = s.taps := rfl
@[simp] theorem modStore_engines (f : TableStore → TableStore) (s : State) :
    (modStore f s).engines = s.engines := rfl
@[simp] theorem modStore_ringEngine (f : TableStore → TableStore) (s : State) :
    (modStore f s).ringEngine = s.ringEngine := rfl
@[simp] theorem modStore_contexts (f : TableStore → TableStore) (s : State) :
    (modStore f s).contexts = s.contexts := rfl
@[simp] theorem modStore_sightings (f : TableStore → TableStore) (s : State) :
    (modStore f s).sightings = s.sightings := rfl
@[simp] theorem modStore_hot (f : TableStore → TableStore) (s : State) :
    (modStore f s).hot = s.hot := rfl
@[simp] theorem modStore_store (f : TableStore → TableStore) (s : State) :
    (modStore f s).store = f s.store := rfl
@[simp] theorem modStore_loader (f : TableStore → TableStore) (s : State) :
    (modStore f s).loader = s.loader := rfl
@[simp] theorem modStore_arb (f : TableStore → TableStore) (s : State) :
    (modStore f s).arb = s.arb := rfl
@[simp] theorem modStore_gate (f : TableStore → TableStore) (s : State) :
    (modStore f s).gate = s.gate := rfl
@[simp] theorem modStore_ring (f : TableStore → TableStore) (s : State) :
    (modStore f s).ring = s.ring := rfl
@[simp] theorem modStore_clock (f : TableStore → TableStore) (s : State) :
    (modStore f s).clock = s.clock := rfl
@[simp] theorem modStore_decoder (f : TableStore → TableStore) (s : State) :
    (modStore f s).decoder = s.decoder := rfl
@[simp] theorem modStore_journal (f : TableStore → TableStore) (s : State) :
    (modStore f s).journal = s.journal := rfl
@[simp] theorem modStore_keys (f : TableStore → TableStore) (s : State) :
    (modStore f s).keys = s.keys := rfl
@[simp] theorem modStore_draws (f : TableStore → TableStore) (s : State) :
    (modStore f s).draws = s.draws := rfl

/-! ### modArb -/

@[simp] theorem modArb_pending (f : Arbiter → Arbiter) (s : State) :
    (modArb f s).pending = s.pending := rfl
@[simp] theorem modArb_power (f : Arbiter → Arbiter) (s : State) :
    (modArb f s).power = s.power := rfl
@[simp] theorem modArb_emerg (f : Arbiter → Arbiter) (s : State) :
    (modArb f s).emerg = s.emerg := rfl
@[simp] theorem modArb_keyload (f : Arbiter → Arbiter) (s : State) :
    (modArb f s).keyload = s.keyload := rfl
@[simp] theorem modArb_chans (f : Arbiter → Arbiter) (s : State) :
    (modArb f s).chans = s.chans := rfl
@[simp] theorem modArb_taps (f : Arbiter → Arbiter) (s : State) : (modArb f s).taps = s.taps := rfl
@[simp] theorem modArb_engines (f : Arbiter → Arbiter) (s : State) :
    (modArb f s).engines = s.engines := rfl
@[simp] theorem modArb_ringEngine (f : Arbiter → Arbiter) (s : State) :
    (modArb f s).ringEngine = s.ringEngine := rfl
@[simp] theorem modArb_contexts (f : Arbiter → Arbiter) (s : State) :
    (modArb f s).contexts = s.contexts := rfl
@[simp] theorem modArb_sightings (f : Arbiter → Arbiter) (s : State) :
    (modArb f s).sightings = s.sightings := rfl
@[simp] theorem modArb_hot (f : Arbiter → Arbiter) (s : State) : (modArb f s).hot = s.hot := rfl
@[simp] theorem modArb_store (f : Arbiter → Arbiter) (s : State) :
    (modArb f s).store = s.store := rfl
@[simp] theorem modArb_loader (f : Arbiter → Arbiter) (s : State) :
    (modArb f s).loader = s.loader := rfl
@[simp] theorem modArb_arb (f : Arbiter → Arbiter) (s : State) : (modArb f s).arb = f s.arb := rfl
@[simp] theorem modArb_gate (f : Arbiter → Arbiter) (s : State) : (modArb f s).gate = s.gate := rfl
@[simp] theorem modArb_ring (f : Arbiter → Arbiter) (s : State) : (modArb f s).ring = s.ring := rfl
@[simp] theorem modArb_clock (f : Arbiter → Arbiter) (s : State) :
    (modArb f s).clock = s.clock := rfl
@[simp] theorem modArb_decoder (f : Arbiter → Arbiter) (s : State) :
    (modArb f s).decoder = s.decoder := rfl
@[simp] theorem modArb_journal (f : Arbiter → Arbiter) (s : State) :
    (modArb f s).journal = s.journal := rfl
@[simp] theorem modArb_keys (f : Arbiter → Arbiter) (s : State) : (modArb f s).keys = s.keys := rfl
@[simp] theorem modArb_draws (f : Arbiter → Arbiter) (s : State) :
    (modArb f s).draws = s.draws := rfl

/-! ### modGate -/

@[simp] theorem modGate_pending (f : Gate → Gate) (s : State) :
    (modGate f s).pending = s.pending := rfl
@[simp] theorem modGate_power (f : Gate → Gate) (s : State) : (modGate f s).power = s.power := rfl
@[simp] theorem modGate_emerg (f : Gate → Gate) (s : State) : (modGate f s).emerg = s.emerg := rfl
@[simp] theorem modGate_keyload (f : Gate → Gate) (s : State) :
    (modGate f s).keyload = s.keyload := rfl
@[simp] theorem modGate_chans (f : Gate → Gate) (s : State) : (modGate f s).chans = s.chans := rfl
@[simp] theorem modGate_taps (f : Gate → Gate) (s : State) : (modGate f s).taps = s.taps := rfl
@[simp] theorem modGate_engines (f : Gate → Gate) (s : State) :
    (modGate f s).engines = s.engines := rfl
@[simp] theorem modGate_ringEngine (f : Gate → Gate) (s : State) :
    (modGate f s).ringEngine = s.ringEngine := rfl
@[simp] theorem modGate_contexts (f : Gate → Gate) (s : State) :
    (modGate f s).contexts = s.contexts := rfl
@[simp] theorem modGate_sightings (f : Gate → Gate) (s : State) :
    (modGate f s).sightings = s.sightings := rfl
@[simp] theorem modGate_hot (f : Gate → Gate) (s : State) : (modGate f s).hot = s.hot := rfl
@[simp] theorem modGate_store (f : Gate → Gate) (s : State) : (modGate f s).store = s.store := rfl
@[simp] theorem modGate_loader (f : Gate → Gate) (s : State) :
    (modGate f s).loader = s.loader := rfl
@[simp] theorem modGate_arb (f : Gate → Gate) (s : State) : (modGate f s).arb = s.arb := rfl
@[simp] theorem modGate_gate (f : Gate → Gate) (s : State) : (modGate f s).gate = f s.gate := rfl
@[simp] theorem modGate_ring (f : Gate → Gate) (s : State) : (modGate f s).ring = s.ring := rfl
@[simp] theorem modGate_clock (f : Gate → Gate) (s : State) : (modGate f s).clock = s.clock := rfl
@[simp] theorem modGate_decoder (f : Gate → Gate) (s : State) :
    (modGate f s).decoder = s.decoder := rfl
@[simp] theorem modGate_journal (f : Gate → Gate) (s : State) :
    (modGate f s).journal = s.journal := rfl
@[simp] theorem modGate_keys (f : Gate → Gate) (s : State) : (modGate f s).keys = s.keys := rfl
@[simp] theorem modGate_draws (f : Gate → Gate) (s : State) : (modGate f s).draws = s.draws := rfl

/-! ### modRing -/

@[simp] theorem modRing_pending (f : Ring → Ring) (s : State) :
    (modRing f s).pending = s.pending := rfl
@[simp] theorem modRing_power (f : Ring → Ring) (s : State) : (modRing f s).power = s.power := rfl
@[simp] theorem modRing_emerg (f : Ring → Ring) (s : State) : (modRing f s).emerg = s.emerg := rfl
@[simp] theorem modRing_keyload (f : Ring → Ring) (s : State) :
    (modRing f s).keyload = s.keyload := rfl
@[simp] theorem modRing_chans (f : Ring → Ring) (s : State) : (modRing f s).chans = s.chans := rfl
@[simp] theorem modRing_taps (f : Ring → Ring) (s : State) : (modRing f s).taps = s.taps := rfl
@[simp] theorem modRing_engines (f : Ring → Ring) (s : State) :
    (modRing f s).engines = s.engines := rfl
@[simp] theorem modRing_ringEngine (f : Ring → Ring) (s : State) :
    (modRing f s).ringEngine = s.ringEngine := rfl
@[simp] theorem modRing_contexts (f : Ring → Ring) (s : State) :
    (modRing f s).contexts = s.contexts := rfl
@[simp] theorem modRing_sightings (f : Ring → Ring) (s : State) :
    (modRing f s).sightings = s.sightings := rfl
@[simp] theorem modRing_hot (f : Ring → Ring) (s : State) : (modRing f s).hot = s.hot := rfl
@[simp] theorem modRing_store (f : Ring → Ring) (s : State) : (modRing f s).store = s.store := rfl
@[simp] theorem modRing_loader (f : Ring → Ring) (s : State) :
    (modRing f s).loader = s.loader := rfl
@[simp] theorem modRing_arb (f : Ring → Ring) (s : State) : (modRing f s).arb = s.arb := rfl
@[simp] theorem modRing_gate (f : Ring → Ring) (s : State) : (modRing f s).gate = s.gate := rfl
@[simp] theorem modRing_ring (f : Ring → Ring) (s : State) : (modRing f s).ring = f s.ring := rfl
@[simp] theorem modRing_clock (f : Ring → Ring) (s : State) : (modRing f s).clock = s.clock := rfl
@[simp] theorem modRing_decoder (f : Ring → Ring) (s : State) :
    (modRing f s).decoder = s.decoder := rfl
@[simp] theorem modRing_journal (f : Ring → Ring) (s : State) :
    (modRing f s).journal = s.journal := rfl
@[simp] theorem modRing_keys (f : Ring → Ring) (s : State) : (modRing f s).keys = s.keys := rfl
@[simp] theorem modRing_draws (f : Ring → Ring) (s : State) : (modRing f s).draws = s.draws := rfl

/-! ### modClock -/

@[simp] theorem modClock_pending (f : Clock → Clock) (s : State) :
    (modClock f s).pending = s.pending := rfl
@[simp] theorem modClock_power (f : Clock → Clock) (s : State) :
    (modClock f s).power = s.power := rfl
@[simp] theorem modClock_emerg (f : Clock → Clock) (s : State) :
    (modClock f s).emerg = s.emerg := rfl
@[simp] theorem modClock_keyload (f : Clock → Clock) (s : State) :
    (modClock f s).keyload = s.keyload := rfl
@[simp] theorem modClock_chans (f : Clock → Clock) (s : State) :
    (modClock f s).chans = s.chans := rfl
@[simp] theorem modClock_taps (f : Clock → Clock) (s : State) : (modClock f s).taps = s.taps := rfl
@[simp] theorem modClock_engines (f : Clock → Clock) (s : State) :
    (modClock f s).engines = s.engines := rfl
@[simp] theorem modClock_ringEngine (f : Clock → Clock) (s : State) :
    (modClock f s).ringEngine = s.ringEngine := rfl
@[simp] theorem modClock_contexts (f : Clock → Clock) (s : State) :
    (modClock f s).contexts = s.contexts := rfl
@[simp] theorem modClock_sightings (f : Clock → Clock) (s : State) :
    (modClock f s).sightings = s.sightings := rfl
@[simp] theorem modClock_hot (f : Clock → Clock) (s : State) : (modClock f s).hot = s.hot := rfl
@[simp] theorem modClock_store (f : Clock → Clock) (s : State) :
    (modClock f s).store = s.store := rfl
@[simp] theorem modClock_loader (f : Clock → Clock) (s : State) :
    (modClock f s).loader = s.loader := rfl
@[simp] theorem modClock_arb (f : Clock → Clock) (s : State) : (modClock f s).arb = s.arb := rfl
@[simp] theorem modClock_gate (f : Clock → Clock) (s : State) : (modClock f s).gate = s.gate := rfl
@[simp] theorem modClock_ring (f : Clock → Clock) (s : State) : (modClock f s).ring = s.ring := rfl
@[simp] theorem modClock_clock (f : Clock → Clock) (s : State) :
    (modClock f s).clock = f s.clock := rfl
@[simp] theorem modClock_decoder (f : Clock → Clock) (s : State) :
    (modClock f s).decoder = s.decoder := rfl
@[simp] theorem modClock_journal (f : Clock → Clock) (s : State) :
    (modClock f s).journal = s.journal := rfl
@[simp] theorem modClock_keys (f : Clock → Clock) (s : State) : (modClock f s).keys = s.keys := rfl
@[simp] theorem modClock_draws (f : Clock → Clock) (s : State) :
    (modClock f s).draws = s.draws := rfl

/-! ### modDecoder -/

@[simp] theorem modDecoder_pending (f : Decoder → Decoder) (s : State) :
    (modDecoder f s).pending = s.pending := rfl
@[simp] theorem modDecoder_power (f : Decoder → Decoder) (s : State) :
    (modDecoder f s).power = s.power := rfl
@[simp] theorem modDecoder_emerg (f : Decoder → Decoder) (s : State) :
    (modDecoder f s).emerg = s.emerg := rfl
@[simp] theorem modDecoder_keyload (f : Decoder → Decoder) (s : State) :
    (modDecoder f s).keyload = s.keyload := rfl
@[simp] theorem modDecoder_chans (f : Decoder → Decoder) (s : State) :
    (modDecoder f s).chans = s.chans := rfl
@[simp] theorem modDecoder_taps (f : Decoder → Decoder) (s : State) :
    (modDecoder f s).taps = s.taps := rfl
@[simp] theorem modDecoder_engines (f : Decoder → Decoder) (s : State) :
    (modDecoder f s).engines = s.engines := rfl
@[simp] theorem modDecoder_ringEngine (f : Decoder → Decoder) (s : State) :
    (modDecoder f s).ringEngine = s.ringEngine := rfl
@[simp] theorem modDecoder_contexts (f : Decoder → Decoder) (s : State) :
    (modDecoder f s).contexts = s.contexts := rfl
@[simp] theorem modDecoder_sightings (f : Decoder → Decoder) (s : State) :
    (modDecoder f s).sightings = s.sightings := rfl
@[simp] theorem modDecoder_hot (f : Decoder → Decoder) (s : State) :
    (modDecoder f s).hot = s.hot := rfl
@[simp] theorem modDecoder_store (f : Decoder → Decoder) (s : State) :
    (modDecoder f s).store = s.store := rfl
@[simp] theorem modDecoder_loader (f : Decoder → Decoder) (s : State) :
    (modDecoder f s).loader = s.loader := rfl
@[simp] theorem modDecoder_arb (f : Decoder → Decoder) (s : State) :
    (modDecoder f s).arb = s.arb := rfl
@[simp] theorem modDecoder_gate (f : Decoder → Decoder) (s : State) :
    (modDecoder f s).gate = s.gate := rfl
@[simp] theorem modDecoder_ring (f : Decoder → Decoder) (s : State) :
    (modDecoder f s).ring = s.ring := rfl
@[simp] theorem modDecoder_clock (f : Decoder → Decoder) (s : State) :
    (modDecoder f s).clock = s.clock := rfl
@[simp] theorem modDecoder_decoder (f : Decoder → Decoder) (s : State) :
    (modDecoder f s).decoder = f s.decoder := rfl
@[simp] theorem modDecoder_journal (f : Decoder → Decoder) (s : State) :
    (modDecoder f s).journal = s.journal := rfl
@[simp] theorem modDecoder_keys (f : Decoder → Decoder) (s : State) :
    (modDecoder f s).keys = s.keys := rfl
@[simp] theorem modDecoder_draws (f : Decoder → Decoder) (s : State) :
    (modDecoder f s).draws = s.draws := rfl

/-! ### modJournal -/

@[simp] theorem modJournal_pending (f : Journal → Journal) (s : State) :
    (modJournal f s).pending = s.pending := rfl
@[simp] theorem modJournal_power (f : Journal → Journal) (s : State) :
    (modJournal f s).power = s.power := rfl
@[simp] theorem modJournal_emerg (f : Journal → Journal) (s : State) :
    (modJournal f s).emerg = s.emerg := rfl
@[simp] theorem modJournal_keyload (f : Journal → Journal) (s : State) :
    (modJournal f s).keyload = s.keyload := rfl
@[simp] theorem modJournal_chans (f : Journal → Journal) (s : State) :
    (modJournal f s).chans = s.chans := rfl
@[simp] theorem modJournal_taps (f : Journal → Journal) (s : State) :
    (modJournal f s).taps = s.taps := rfl
@[simp] theorem modJournal_engines (f : Journal → Journal) (s : State) :
    (modJournal f s).engines = s.engines := rfl
@[simp] theorem modJournal_ringEngine (f : Journal → Journal) (s : State) :
    (modJournal f s).ringEngine = s.ringEngine := rfl
@[simp] theorem modJournal_contexts (f : Journal → Journal) (s : State) :
    (modJournal f s).contexts = s.contexts := rfl
@[simp] theorem modJournal_sightings (f : Journal → Journal) (s : State) :
    (modJournal f s).sightings = s.sightings := rfl
@[simp] theorem modJournal_hot (f : Journal → Journal) (s : State) :
    (modJournal f s).hot = s.hot := rfl
@[simp] theorem modJournal_store (f : Journal → Journal) (s : State) :
    (modJournal f s).store = s.store := rfl
@[simp] theorem modJournal_loader (f : Journal → Journal) (s : State) :
    (modJournal f s).loader = s.loader := rfl
@[simp] theorem modJournal_arb (f : Journal → Journal) (s : State) :
    (modJournal f s).arb = s.arb := rfl
@[simp] theorem modJournal_gate (f : Journal → Journal) (s : State) :
    (modJournal f s).gate = s.gate := rfl
@[simp] theorem modJournal_ring (f : Journal → Journal) (s : State) :
    (modJournal f s).ring = s.ring := rfl
@[simp] theorem modJournal_clock (f : Journal → Journal) (s : State) :
    (modJournal f s).clock = s.clock := rfl
@[simp] theorem modJournal_decoder (f : Journal → Journal) (s : State) :
    (modJournal f s).decoder = s.decoder := rfl
@[simp] theorem modJournal_journal (f : Journal → Journal) (s : State) :
    (modJournal f s).journal = f s.journal := rfl
@[simp] theorem modJournal_keys (f : Journal → Journal) (s : State) :
    (modJournal f s).keys = s.keys := rfl
@[simp] theorem modJournal_draws (f : Journal → Journal) (s : State) :
    (modJournal f s).draws = s.draws := rfl

/-! ### Updates through a side -/

@[simp] theorem modTap_taps (sd : Side) (f : Tap → Tap) (s : State) :
    (modTap sd f s).taps = s.taps.set sd (f (s.taps.get sd)) := rfl

@[simp] theorem modChan_chans (sd : Side) (f : Channel → Channel) (s : State) :
    (modChan sd f s).chans = s.chans.set sd (f (s.chans.get sd)) := rfl

theorem modTap_eq (sd : Side) (f : Tap → Tap) (s : State) :
    modTap sd f s = setTap sd (f (s.taps.get sd)) s := rfl

theorem modChan_eq (sd : Side) (f : Channel → Channel) (s : State) :
    modChan sd f s = setChan sd (f (s.chans.get sd)) s := rfl

end Sys2Proof.Machine
end

