-- ==== Sys2Proof/Laws/Standing.lean ====
section
/-! SUPPORT. Frames: the standing items
    (Sys2Proof/Safety.lean) are kept by every shared operation of the
card path, the gate path, the sightings and the memory port. One equation for each operation. -/

namespace Sys2Proof.Machine

/-- The standing items of the Ring Interface. -/
def ringStanding (r : Ring) : Nat × Bool × Option Nat × Bool × Option Nat :=
  (r.gateNo, r.joined, r.watch, r.repeater, r.restartPeriod)

theorem modRing_standing (f : Ring → Ring) (s : State)
    (h : ringStanding (f s.ring) = ringStanding s.ring) : standing (modRing f s) = standing s := by
  simp only [ringStanding, Prod.mk.injEq] at h
  simp [standing, h]

theorem modStore_standing (f : TableStore → TableStore) (s : State)
    (h : (f s.store).setup = s.store.setup) : standing (modStore f s) = standing s := by
  simp [standing, h]

@[simp] theorem placeIntent_standing (m : LineMsg) (r : Ring) :
    ringStanding (placeIntent m r) = ringStanding r := rfl

@[simp] theorem withdrawMsg_standing (m : LineMsg) (r : Ring) :
    ringStanding (withdrawMsg m r) = ringStanding r := rfl

@[simp] theorem joinInsertion_standing (m : LineMsg) (r : Ring) :
    ringStanding (joinInsertion m r) = ringStanding r := by
  unfold joinInsertion
  split
  · rfl
  · split <;> rfl

@[simp] theorem enterSent_standing (e : SentEntry) (r : Ring) :
    ringStanding (enterSent e r) = ringStanding r := by
  unfold enterSent
  split <;> rfl

theorem reserveIntent_standing {r r' : Ring} (h : reserveIntent r = some r') :
    ringStanding r' = ringStanding r := by
  unfold reserveIntent at h
  split at h
  · cases h
    rfl
  · obtain ⟨l, -, rfl⟩ := Option.map_eq_some_iff.mp h
    rfl

@[simp] theorem setBank_setup (id : BankId) (b : Bank) (t : TableStore) :
    (setBank id b t).setup = t.setup := by cases id <;> rfl

/-- Operations that keep the standing items one by one keep them over a list. -/
theorem foldl_standing {α : Type} (f : State → α → State)
    (h : ∀ s a, standing (f s a) = standing s) (l : List α) (s : State) :
    standing (l.foldl f s) = standing s := by
  induction l generalizing s with
  | nil => rfl
  | cons a rest ih => rw [List.foldl_cons, ih, h]

@[simp] theorem setChan_standing (sd : Side) (c : Channel) (s : State) :
    standing (setChan sd c s) = standing s := rfl

@[simp] theorem modChan_standing (sd : Side) (f : Channel → Channel) (s : State) :
    standing (modChan sd f s) = standing s := rfl

@[simp] theorem setTap_standing (sd : Side) (t : Tap) (s : State) :
    standing (setTap sd t s) = standing s := rfl

@[simp] theorem modTap_standing (sd : Side) (f : Tap → Tap) (s : State) :
    standing (modTap sd f s) = standing s := rfl

@[simp] theorem modRecord_standing (sd : Side) (f : TapRecord → TapRecord) (s : State) :
    standing (modRecord sd f s) = standing s := rfl

@[simp] theorem setEngine_standing (sd : Side) (j : Option ChanJob) (s : State) :
    standing (setEngine sd j s) = standing s := rfl

@[simp] theorem modHot_standing (f : Hotlist → Hotlist) (s : State) :
    standing (modHot f s) = standing s := rfl

@[simp] theorem modArb_standing (f : Arbiter → Arbiter) (s : State) :
    standing (modArb f s) = standing s := rfl

@[simp] theorem modGate_standing (f : Gate → Gate) (s : State) :
    standing (modGate f s) = standing s := rfl

@[simp] theorem modJournal_standing (f : Journal → Journal) (s : State) :
    standing (modJournal f s) = standing s := rfl

@[simp] theorem setTapState_standing (sd : Side) (st : TapState) (s : State) :
    standing (setTapState sd st s) = standing s := rfl

@[simp] theorem modCounters_standing (f : Counters → Counters) (s : State) :
    standing (modCounters f s) = standing s := rfl

@[simp] theorem offerRecord_standing (r : JournalRecord) (s : State) :
    standing (offerRecord r s) = standing s := by
  unfold offerRecord
  split <;> simp

@[simp] theorem convertRecord_standing (r : JournalRecord) (s : State) :
    standing (convertRecord r s) = standing s := rfl

@[simp] theorem closeRecord_standing (sd : Side) (missed : Bool) (s : State) :
    standing (closeRecord sd missed s) = standing s := rfl

@[simp] theorem releaseInsertion_standing (sd : Side) (s : State) :
    standing (releaseInsertion sd s) = standing s := by
  unfold releaseInsertion
  split
  · rw [modRecord_standing, modRing_standing _ _ rfl]
  · rfl

@[simp] theorem releaseJournal_standing (sd : Side) (s : State) :
    standing (releaseJournal sd s) = standing s := by
  unfold releaseJournal
  split <;> simp

@[simp] theorem releaseGrantSlot_standing (sd : Side) (s : State) :
    standing (releaseGrantSlot sd s) = standing s := by
  unfold releaseGrantSlot
  split <;> simp

@[simp] theorem releaseReservations_standing (sd : Side) (s : State) :
    standing (releaseReservations sd s) = standing s := by simp [releaseReservations]

@[simp] theorem offerLocal_standing (u : Uid) (s : State) :
    standing (offerLocal u s) = standing s := by
  unfold offerLocal
  split <;> simp

@[simp] theorem startStop_standing (sd : Side) (category : StopCategory) (s : State) :
    standing (startStop sd category s) = standing s := rfl

@[simp] theorem sendCommand_standing (sd : Side) (cmd : AirCommand) (attempt : Nat) (s : State) :
    standing (sendCommand sd cmd attempt s) = standing s := rfl

@[simp] theorem askHalt_standing (sd : Side) (s : State) :
    standing (askHalt sd s) = standing s := rfl

@[simp] theorem removeContext_standing (u : Uid) (s : State) :
    standing (removeContext u s) = standing s := rfl

@[simp] theorem expireContext_standing (c : Context) (s : State) :
    standing (expireContext c s) = standing s := by simp [expireContext]

@[simp] theorem modContext_standing (u : Uid) (f : Context → Context) (s : State) :
    standing (modContext u f s) = standing s := rfl

@[simp] theorem releaseContext_standing (sd : Side) (s : State) :
    standing (releaseContext sd s) = standing s := by
  unfold releaseContext
  repeat' split
  all_goals simp

@[simp] theorem recordRefusal_standing (sd : Side) (kind : JournalKind) (code : RefusalCode)
    (s : State) : standing (recordRefusal sd kind code s) = standing s := by simp [recordRefusal]

@[simp] theorem refuseSequence_standing (sd : Side) (kind : JournalKind) (code : RefusalCode)
    (s : State) : standing (refuseSequence sd kind code s) = standing s := by simp [refuseSequence]

@[simp] theorem refuse_standing (sd : Side) (code : RefusalCode) (s : State) :
    standing (refuse sd code s) = standing s := by simp [refuse]

@[simp] theorem purgeSightings_standing (s : State) :
    standing (purgeSightings s) = standing s := rfl

@[simp] theorem modEntry_standing (u : Uid) (f : SightEntry → SightEntry) (s : State) :
    standing (modEntry u f s) = standing s := rfl

@[simp] theorem removeEntry_standing (u : Uid) (s : State) :
    standing (removeEntry u s) = standing s := rfl

@[simp] theorem insertEntry_standing (e : SightEntry) (s : State) :
    standing (insertEntry e s) = standing s := by
  simp only [insertEntry, standing]
  repeat' split
  all_goals simp

@[simp] theorem cloneParty_standing (sd : Side) (reason : FindingReason) (s : State) :
    standing (cloneParty sd reason s) = standing s := by rw [cloneParty,
    modRing_standing _ _ (joinInsertion_standing _ _), offerLocal_standing]

@[simp] theorem takeUpMark_standing (sd : Side) (s : State) :
    standing (takeUpMark sd s) = standing s := by
  unfold takeUpMark
  split <;> simp

@[simp] theorem setBackEntry_standing (u : Uid) (finding : Option Displaced) (e : SightEntry)
    (s : State) : standing (setBackEntry u finding e s) = standing s := by
  unfold setBackEntry
  split <;> simp

@[simp] theorem withdrawIntent_standing (sd : Side) (finding : Option Displaced) (s : State) :
    standing (withdrawIntent sd finding s) = standing s := by
  simp only [withdrawIntent, purgeSightings_standing]
  split
  · rw [modRing_standing _ _ (withdrawMsg_standing _ _)]
    repeat' split
    all_goals simp
  · repeat' split
    all_goals simp

@[simp] theorem refuseClone_standing (sd : Side) (reason : FindingReason)
    (finding : Option Displaced) (s : State) :
    standing (refuseClone sd reason finding s) = standing s := by simp [refuseClone]

@[simp] theorem applySighting_standing
    (rule : SightEntry → Sighting → SightEntry × Option FindingReason) (x : Sighting) (s : State) :
    standing (applySighting rule x s).1 = standing s := by
  unfold applySighting
  split <;> simp

@[simp] theorem takeFinding_standing (sd : Side) (reason : FindingReason) (x : Sighting)
    (s : State) : standing (takeFinding sd reason x s) = standing s := by
  unfold takeFinding
  split <;> simp

@[simp] theorem judgeSide_standing (sd : Side) (x : Sighting) (action : Option FindingReason)
    (s : State) : standing (judgeSide sd x action s) = standing s := by
  unfold judgeSide
  repeat' split
  all_goals simp

@[simp] theorem bystander_standing (u : Uid) (action : Option FindingReason) (busy : Bool)
    (s : State) : standing (bystander u action busy s) = standing s := by
  unfold bystander
  split <;> simp

@[simp] theorem arriveSighting_standing (x : Sighting) (s : State) :
    standing (arriveSighting x s) = standing s := by
  simp only [arriveSighting]
  repeat' split
  all_goals simp

@[simp] theorem ownSighting_standing (sd : Side) (x : Sighting) (s : State) :
    standing (ownSighting sd x s) = standing s := by
  simp only [ownSighting, bystander_standing, judgeSide_standing]
  rw [modRing_standing _ _ (joinInsertion_standing _ _)]
  simp

@[simp] theorem claimEntry_standing (x : Sighting) (s : State) :
    standing (claimEntry x s) = standing s := by
  unfold claimEntry
  split <;> simp

@[simp] theorem enterClaiming_standing (sd : Side) (s : State) :
    standing (enterClaiming sd s) = standing s := by
  unfold enterClaiming
  extract_lets s' u t x before entered placed holding judged
  have he : standing entered = standing s := by
    show standing (if _ then _ else _) = _
    split
    · exact purgeSightings_standing s
    · rw [claimEntry_standing, purgeSightings_standing]
  have hp : standing placed = standing s := by
    show standing (modRecord _ _ (modRing _ _)) = _
    rw [modRecord_standing, modRing_standing _ _ rfl, he]
  have hj : standing judged = standing s := by
    show standing (judgeSide _ _ _ (modTap _ _ _)) = _
    rw [judgeSide_standing, modTap_standing, hp]
  split
  · rw [refuseClone_standing, hj]
  · exact hj

@[simp] theorem contestEntry_standing (u : Uid) (s : State) :
    standing (contestEntry u s) = standing s := rfl

@[simp] theorem arriveNotice_standing (u : Uid) (s : State) :
    standing (arriveNotice u s) = standing s := by simp [arriveNotice]

@[simp] theorem makeRoom_standing (s : State) : standing (makeRoom s) = standing s := by
  unfold makeRoom
  repeat' split
  all_goals simp

@[simp] theorem enterContext_standing (c : Context) (s : State) :
    standing (enterContext c s) = standing s := by
  unfold enterContext
  split <;> simp [standing]

@[simp] theorem createContext_standing (sd : Side) (s : State) :
    standing (createContext sd s) = standing s := by
  simp only [createContext]
  repeat' split
  all_goals simp

@[simp] theorem updateContext_standing (c : Context) (sd : Side) (s : State) :
    standing (updateContext c sd s) = standing s := by
  unfold updateContext
  split <;> simp

@[simp] theorem tearHandOff_standing (sd : Side) (s : State) :
    standing (tearHandOff sd s) = standing s := by
  unfold tearHandOff
  split <;> simp

@[simp] theorem tear_standing (sd : Side) (s : State) :
    standing (tear sd s) = standing s := by simp [tear]

@[simp] theorem reachDeadline_standing (s : State) (c : Context) :
    standing (reachDeadline s c) = standing s := by
  unfold reachDeadline
  split <;> simp

@[simp] theorem takeDeadlines_standing (s : State) :
    standing (takeDeadlines s) = standing s :=
  foldl_standing _
    (fun s c => reachDeadline_standing s c) _ _

@[simp] theorem startPassTimer_standing (s : State) : standing (startPassTimer s) = standing s := by
  unfold startPassTimer
  split <;> simp

@[simp] theorem stopPassTimer_standing (s : State) : standing (stopPassTimer s) = standing s := rfl

@[simp] theorem giveUpGrant_standing (emergency : Bool) (s : State) (g : Grant) :
    standing (giveUpGrant emergency s g) = standing s := by simp [giveUpGrant]

@[simp] theorem withdrawAll_standing (emergency : Bool) (s : State) :
    standing (withdrawAll emergency s) = standing s := by rw [withdrawAll,
    foldl_standing _ (fun s g => giveUpGrant_standing _ s g), modGate_standing]

@[simp] theorem shutLane_standing (emergency : Bool) (s : State) :
    standing (shutLane emergency s) = standing s := by simp [shutLane]

@[simp] theorem deriveGate_standing (s : State) : standing (deriveGate s) = standing s := by
  unfold deriveGate
  split <;> simp

@[simp] theorem handOverGrant_standing (g : Grant) (s : State) :
    standing (handOverGrant g s) = standing s := by
  simp only [handOverGrant]
  repeat' split
  all_goals simp

@[simp] theorem raiseAlarm_standing (k : AlarmKind) (s : State) :
    standing (raiseAlarm k s) = standing s := rfl

@[simp] theorem clearAlarm_standing (s : State) : standing (clearAlarm s) = standing s := by
  unfold clearAlarm
  split <;> simp

@[simp] theorem nextHead_standing (s : State) : standing (nextHead s) = standing s := by
  unfold nextHead
  repeat' split
  all_goals simp

@[simp] theorem setOccupancy_standing (n : Nat) (s : State) :
    standing (setOccupancy n s) = standing s := rfl

@[simp] theorem enterHead_standing (s : State) : standing (enterHead s) = standing s := rfl

@[simp] theorem enterSecond_standing (s : State) : standing (enterSecond s) = standing s := rfl

@[simp] theorem enterEffect_standing (sd : Side) (st : GateState) (occupancy : Nat) (s : State) :
    standing (enterEffect sd st occupancy s) = standing s := by
  unfold enterEffect
  repeat' split
  all_goals simp

@[simp] theorem laneEnter_standing (sd : Side) (s : State) :
    standing (laneEnter sd s) = standing s := by simp [laneEnter]

@[simp] theorem consumeHead_standing (s : State) :
    standing (consumeHead s) = standing s := by simp [consumeHead]

@[simp] theorem backOut_standing (s : State) : standing (backOut s) = standing s := by
  unfold backOut
  repeat' split
  all_goals simp

@[simp] theorem lanePassed_standing (sd : Side) (s : State) :
    standing (lanePassed sd s) = standing s := by
  unfold lanePassed
  repeat' split
  all_goals simp

@[simp] theorem laneClear_standing (s : State) : standing (laneClear s) = standing s := by
  unfold laneClear
  split <;> simp

@[simp] theorem laneForced_standing (s : State) : standing (laneForced s) = standing s := by
  unfold laneForced
  split <;> simp

@[simp] theorem laneOccupied_standing (s : State) : standing (laneOccupied s) = standing s := by
  unfold laneOccupied
  split <;> simp

@[simp] theorem passExpiry_standing (s : State) : standing (passExpiry s) = standing s := by
  unfold passExpiry
  split <;> simp

@[simp] theorem releaseAlarm_standing (s : State) : standing (releaseAlarm s) = standing s := by
  unfold releaseAlarm
  split <;> simp

@[simp] theorem modBank_standing (id : BankId) (f : Bank → Bank) (s : State) :
    standing (modBank id f s) = standing s := by exact modStore_standing _ _ (setBank_setup _ _ _)

@[simp] theorem releaseBank_standing (sd : Side) (s : State) :
    standing (releaseBank sd s) = standing s := by
  unfold releaseBank
  split <;> simp

@[simp] theorem activateBank_standing (id : BankId) (s : State) :
    standing (activateBank id s) = standing s := by rw [activateBank, purgeSightings_standing,
    modStore_standing _ _ rfl, modBank_standing, modBank_standing]

@[simp] theorem activateIfDue_standing (s : State) : standing (activateIfDue s) = standing s := by
  unfold activateIfDue
  repeat' split
  all_goals simp

@[simp] theorem lineTimeMoved_standing (s : State) :
    standing (lineTimeMoved s) = standing s := by simp [lineTimeMoved]

@[simp] theorem askStore_standing (sd : Side) (ask : TapAsk) (s : State) :
    standing (askStore sd ask s) = standing s := rfl

@[simp] theorem askLoader_standing (ask : LoaderAsk) (s : State) :
    standing (askLoader ask s) = standing s := rfl

@[simp] theorem mergeLook_standing (s : State) : standing (mergeLook s) = standing s := by
  unfold mergeLook
  repeat' split
  all_goals simp

@[simp] theorem mergeResume_standing (s : State) : standing (mergeResume s) = standing s := by
  unfold mergeResume
  split <;> simp

@[simp] theorem arbitrate_standing (s : State) : standing (arbitrate s) = standing s := by
  unfold arbitrate
  repeat' split
  all_goals simp

@[simp] theorem grantReady_standing (s : State) : standing (grantReady s) = standing s := by
  unfold grantReady
  split <;> simp

@[simp] theorem endGrant_standing (s : State) : standing (endGrant s) = standing s := rfl

@[simp] theorem finishEnd_standing (sd : Side) (missed : Bool) (s : State) :
    standing (finishEnd sd missed s) = standing s := by
  unfold finishEnd
  split <;> simp

@[simp] theorem tapLost_standing (sd : Side) (s : State) :
    standing (tapLost sd s) = standing s := by
  unfold tapLost
  split <;> simp

@[simp] theorem ask_standing (sd : Side) (cmd : AirCommand) (s : State) :
    standing (ask sd cmd s) = standing s := by
  unfold ask
  split <;> simp

@[simp] theorem askEngine_standing (sd : Side) (job : ChanJob) (s : State) :
    standing (askEngine sd job s) = standing s := rfl

@[simp] theorem askWrite_standing (sd : Side) (block : Nat) (s : State) :
    standing (askWrite sd block s) = standing s := by simp [askWrite]

@[simp] theorem enterConfirming_standing (sd : Side) (s : State) :
    standing (enterConfirming sd s) = standing s := by simp [enterConfirming]

@[simp] theorem writeSecond_standing (sd : Side) (s : State) :
    standing (writeSecond sd s) = standing s := by
  unfold writeSecond
  split <;> simp

@[simp] theorem writeFirst_standing (sd : Side) (s : State) :
    standing (writeFirst sd s) = standing s := by
  unfold writeFirst
  split <;> simp

@[simp] theorem dropDisplaced_standing (sd : Side) (s : State) :
    standing (dropDisplaced sd s) = standing s := rfl

@[simp] theorem writePoint_standing (sd : Side) (s : State) :
    standing (writePoint sd s) = standing s := by
  simp only [writePoint, writeFirst_standing]
  rw [modTap_standing, dropDisplaced_standing]

@[simp] theorem dropHeld_standing (sd : Side) (s : State) :
    standing (dropHeld sd s) = standing s := by
  unfold dropHeld
  split <;> simp

@[simp] theorem commitHandOffs_standing (sd : Side) (d : Decision) (s : State) :
    standing (commitHandOffs sd d s) = standing s := by simp [commitHandOffs]

@[simp] theorem afterCommit_standing (sd : Side) (d : Decision) (s : State) :
    standing (afterCommit sd d s) = standing s := by
  unfold afterCommit
  split <;> simp

@[simp] theorem commit_standing (sd : Side) (s : State) : standing (commit sd s) = standing s := by
  unfold commit
  split <;> simp

@[simp] theorem confirmBlock_standing (sd : Side) (first : Bool) (s : State) :
    standing (confirmBlock sd first s) = standing s := rfl

@[simp] theorem rewriteBlock_standing (sd : Side) (first : Bool) (s : State) :
    standing (rewriteBlock sd first s) = standing s := by simp [rewriteBlock]

@[simp] theorem afterReadBack_standing (sd : Side) (s : State) :
    standing (afterReadBack sd s) = standing s := by
  simp only [afterReadBack]
  repeat' split
  all_goals simp

@[simp] theorem readBack_standing (sd : Side) (block : Nat) (bytes : List Byte) (s : State) :
    standing (readBack sd block bytes s) = standing s := by
  simp only [readBack]
  repeat' split
  all_goals simp

@[simp] theorem tapWritten_standing (sd : Side) (block : Nat) (s : State) :
    standing (tapWritten sd block s) = standing s := by
  unfold tapWritten
  repeat' split
  all_goals simp

@[simp] theorem reservedAll_standing (sd : Side) (s : State) :
    standing (reservedAll sd s) = standing s := by
  unfold reservedAll
  split <;> simp

@[simp] theorem takeInsertion_standing (sd : Side) (s : State) :
    standing (takeInsertion sd s) = standing s := by
  unfold takeInsertion
  split
  · split
    · simp
    · rename_i ring h
      rw [reservedAll_standing, modRecord_standing]
      have := reserveIntent_standing h
      simp only [ringStanding, Prod.mk.injEq] at this
      simp [standing, this]
  · simp

@[simp] theorem takeJournal_standing (sd : Side) (s : State) :
    standing (takeJournal sd s) = standing s := by
  unfold takeJournal
  split <;> simp

@[simp] theorem check11_standing (sd : Side) (s : State) :
    standing (check11 sd s) = standing s := by
  unfold check11
  split <;> simp

@[simp] theorem check1_standing (sd : Side) (s : State) : standing (check1 sd s) = standing s := by
  unfold check1
  split <;> simp

@[simp] theorem check3_standing (sd : Side) (s : State) : standing (check3 sd s) = standing s := by
  simp only [check3]
  repeat' split
  all_goals simp

@[simp] theorem check2_standing (sd : Side) (s : State) : standing (check2 sd s) = standing s := by
  unfold check2
  split <;> simp

@[simp] theorem blockAction_standing (sd : Side) (s : State) :
    standing (blockAction sd s) = standing s := by simp [blockAction]

@[simp] theorem check4_standing (sd : Side) (s : State) : standing (check4 sd s) = standing s := by
  simp only [check4]
  repeat' split
  all_goals simp

@[simp] theorem recoverTap_standing (sd : Side) (c : Context) (cls : RecoveryClass) (s : State) :
    standing (recoverTap sd c cls s) = standing s := by simp [recoverTap]

@[simp] theorem check8_standing (sd : Side) (s : State) : standing (check8 sd s) = standing s := by
  unfold check8
  split <;> simp

@[simp] theorem check7_standing (sd : Side) (s : State) : standing (check7 sd s) = standing s := by
  unfold check7
  repeat' split
  all_goals simp

@[simp] theorem check6_standing (sd : Side) (s : State) : standing (check6 sd s) = standing s := by
  simp only [check6]
  repeat' split
  all_goals simp

@[simp] theorem check5_standing (sd : Side) (s : State) : standing (check5 sd s) = standing s := by
  unfold check5
  split <;> simp

@[simp] theorem check9_standing (sd : Side) (s : State) : standing (check9 sd s) = standing s := by
  simp only [check9]
  repeat' split
  all_goals simp

@[simp] theorem check10_standing (sd : Side) (s : State) :
    standing (check10 sd s) = standing s := by
  simp only [check10]
  repeat' split
  all_goals simp

@[simp] theorem bankCheck_standing (sd : Side) (a : TapAsk) (s : State) :
    standing (bankCheck sd a s) = standing s := by
  unfold bankCheck
  split <;> simp

@[simp] theorem enterDeciding_standing (sd : Side) (s : State) :
    standing (enterDeciding sd s) = standing s := by
  simp only [enterDeciding]
  repeat' split
  all_goals simp

@[simp] theorem enterAuthenticating_standing (sd : Side) (s : State) :
    standing (enterAuthenticating sd s) = standing s := by
  simp only [enterAuthenticating]
  repeat' split
  all_goals simp

@[simp] theorem startTap_standing (sd : Side) (u : Uid) (s : State) :
    standing (startTap sd u s) = standing s := by simp [startTap]

@[simp] theorem readingBlock_standing (sd : Side) (block : Nat) (bytes : List Byte) (s : State) :
    standing (readingBlock sd block bytes s) = standing s := by
  unfold readingBlock
  split <;> simp

@[simp] theorem tapRead_standing (sd : Side) (block : Nat) (bytes : List Byte) (s : State) :
    standing (tapRead sd block bytes s) = standing s := by
  unfold tapRead
  split <;> simp

@[simp] theorem tapChallenged_standing (sd : Side) (challenge : List Byte) (s : State) :
    standing (tapChallenged sd challenge s) = standing s := rfl

@[simp] theorem tapResponded_standing (sd : Side) (response : List Byte) (s : State) :
    standing (tapResponded sd response s) = standing s := rfl

@[simp] theorem withData_standing (answer : AirAnswer) (f : List Byte → State → State) (s : State)
    (hf : ∀ bytes, standing (f bytes s) = standing s) :
    standing (withData answer f s) = standing s := by
  unfold withData
  split
  · exact hf _
  all_goals rfl

@[simp] theorem tapAnswer_standing (sd : Side) (cmd : AirCommand) (answer : AirAnswer) (s : State) :
    standing (tapAnswer sd cmd answer s) = standing s := by
  unfold tapAnswer
  split
  · rw [ask_standing, setTapState_standing]
  · exact withData_standing _ _ _ (fun bytes => tapRead_standing _ _ _ _)
  · exact withData_standing _ _ _ (fun bytes => tapChallenged_standing _ _ _)
  · exact withData_standing _ _ _ (fun bytes => tapResponded_standing _ _ _)
  all_goals rfl

@[simp] theorem sendResponse_standing (sd : Side) (s : State) :
    standing (sendResponse sd s) = standing s := by
  simp only [sendResponse, ask_standing, modRecord_standing]
  rfl

@[simp] theorem verifyResponse_standing (sd : Side) (s : State) :
    standing (verifyResponse sd s) = standing s := by
  simp only [verifyResponse]
  repeat' split
  all_goals simp

@[simp] theorem classSlot_standing (sd : Side) (slot : SlotId) (s : State) :
    standing (classSlot sd slot s) = standing s := by
  unfold classSlot
  split <;> simp

@[simp] theorem composeDone_standing (sd : Side) (record : List Byte) (history : Option HistoryFields)
    (s : State) : standing (composeDone sd record history s) = standing s := by simp [composeDone]

@[simp] theorem blockImageDone_standing (sd : Side) (s : State) :
    standing (blockImageDone sd s) = standing s := by simp [blockImageDone]

@[simp] theorem chanEngineDone_standing (sd : Side) (job : ChanJob) (s : State) :
    standing (chanEngineDone sd job s) = standing s := by
  unfold chanEngineDone
  split <;> simp

@[simp] theorem endTap_standing (sd : Side) (s : State) :
    standing (endTap sd s) = standing s := by simp [endTap]

@[simp] theorem clearCommand_standing (sd : Side) (s : State) :
    standing (clearCommand sd s) = standing s := rfl

@[simp] theorem markLost_standing (sd : Side) (s : State) :
    standing (markLost sd s) = standing s := rfl

@[simp] theorem cardFound_standing (sd : Side) (u : Uid) (s : State) :
    standing (cardFound sd u s) = standing s := by simp [cardFound]

@[simp] theorem twoCards_standing (sd : Side) (s : State) :
    standing (twoCards sd s) = standing s := rfl

@[simp] theorem wakeAnswered_standing (sd : Side) (answer : AirAnswer) (s : State) :
    standing (wakeAnswered sd answer s) = standing s := by
  unfold wakeAnswered
  split
  · exact cardFound_standing _ _ _
  all_goals exact clearCommand_standing _ _

@[simp] theorem pollingEnd_standing (sd : Side) (attempt : Nat) (out : WindowEnd) (s : State) :
    standing (pollingEnd sd attempt out s) = standing s := by
  unfold pollingEnd
  split
  · exact wakeAnswered_standing _ _ _
  · exact twoCards_standing _ _
  · split
    · exact sendCommand_standing _ _ _ _
    · exact clearCommand_standing _ _
  all_goals exact clearCommand_standing _ _

@[simp] theorem awaitEnd_standing (sd : Side) (out : WindowEnd) (s : State) :
    standing (awaitEnd sd out s) = standing s := by
  unfold awaitEnd
  split <;> simp

@[simp] theorem loseCard_standing (sd : Side) (s : State) :
    standing (loseCard sd s) = standing s := by simp [loseCard]

@[simp] theorem engagedEnd_standing (sd : Side) (o : Outstanding) (out : WindowEnd) (s : State) :
    standing (engagedEnd sd o out s) = standing s := by
  unfold engagedEnd
  repeat' split
  all_goals simp

@[simp] theorem endWindow_standing (sd : Side) (o : Outstanding) (out : WindowEnd) (s : State) :
    standing (endWindow sd o out s) = standing s := by
  unfold endWindow
  split <;> simp

@[simp] theorem answerArrives_standing (sd : Side) (report : AirReport) (s : State) :
    standing (answerArrives sd report s) = standing s := by
  unfold answerArrives
  split <;> simp

@[simp] theorem answerExpires_standing (sd : Side) (s : State) :
    standing (answerExpires sd s) = standing s := by
  unfold answerExpires
  split <;> simp

@[simp] theorem sendWake_standing (sd : Side) (s : State) :
    standing (sendWake sd s) = standing s := rfl

@[simp] theorem pollExpires_standing (sd : Side) (s : State) :
    standing (pollExpires sd s) = standing s := by
  unfold pollExpires
  repeat' split
  all_goals simp

@[simp] theorem fieldEmptied_standing (sd : Side) (s : State) :
    standing (fieldEmptied sd s) = standing s := by
  unfold fieldEmptied
  split <;> simp

@[simp] theorem switchOff_standing (sd : Side) (s : State) :
    standing (switchOff sd s) = standing s := rfl

@[simp] theorem switchOn_standing (sd : Side) (s : State) :
    standing (switchOn sd s) = standing s := rfl

@[simp] theorem enableChannel_standing (sd : Side) (s : State) :
    standing (enableChannel sd s) = standing s := by
  unfold enableChannel
  repeat' split
  all_goals simp

@[simp] theorem leaveEngaged_standing (sd : Side) (s : State) :
    standing (leaveEngaged sd s) = standing s := rfl

@[simp] theorem exchangeEnds_standing (sd : Side) (s : State) :
    standing (exchangeEnds sd s) = standing s := by
  unfold exchangeEnds
  split <;> simp

@[simp] theorem holdExpires_standing (sd : Side) (s : State) :
    standing (holdExpires sd s) = standing s := by
  unfold holdExpires
  split <;> simp

@[simp] theorem forwardFrame_standing (f : RingFrame) (s : State) :
    standing (forwardFrame f s) = standing s := by
  simp only [forwardFrame, standing, modRing]
  repeat' split
  all_goals simp

@[simp] theorem forwardIfAll_standing (f : RingFrame) (s : State) :
    standing (forwardIfAll f s) = standing s := by
  unfold forwardIfAll
  split <;> simp

@[simp] theorem takeOwn_standing (s : State) : standing (takeOwn s) = standing s := by
  unfold takeOwn
  split
  · exact modRing_standing _ _ rfl
  · split
    · exact modRing_standing _ _ rfl
    · split
      · exact modRing_standing _ _ rfl
      · rfl

@[simp] theorem ringOutTake_standing (s : State) : standing (ringOutTake s) = standing s := by
  unfold ringOutTake
  split
  · rfl
  · split
    · exact modRing_standing _ _ rfl
    · split
      · exact takeOwn_standing s
      · rfl

@[simp] theorem frameLeaves_standing (x : Sending) (s : State) :
    standing (frameLeaves x s) = standing s := by
  have h : standing (modRing (fun r => { r with sending := none }) s) = standing s :=
    modRing_standing _ _ rfl
  unfold frameLeaves
  dsimp only
  split
  · exact h
  · rw [modJournal_standing, modRing_standing _ _ (enterSent_standing _ _), h]
  · rw [modRing_standing _ _ (enterSent_standing _ _), h]

@[simp] theorem stripFrame_standing (f : RingFrame) (s : State) :
    standing (stripFrame f s) = standing s := by
  unfold stripFrame
  split
  · exact modRing_standing _ _ rfl
  · rw [deriveGate_standing, modRing_standing _ _ rfl]

@[simp] theorem ageOldest_standing (s : State) : standing (ageOldest s) = standing s := rfl

@[simp] theorem driveLeaves_standing (s : State) : standing (driveLeaves s) = standing s := rfl

@[simp] theorem driveIndicators_standing (s : State) :
    standing (driveIndicators s) = standing s := rfl

@[simp] theorem settle_standing (s : State) : standing (settle s) = standing s := by
  unfold settle
  simp

end Sys2Proof.Machine
end

