-- ==== Sys2Proof/Laws/Settle.lean ====
section
/-! SUPPORT. The end of every event: what `settle` leaves as it finds it, field by field, and what it
brings about: the leaves and indicators of the gate state (R142, R143). -/

namespace Sys2Proof.Machine

/-- The items that the end of an event leaves as it finds them. -/
structure SettledItems where
  standingItems : Standing
  taps : Sided Tap
  engines : Sided (Option ChanJob)
  contexts : List Context
  sightings : List SightEntry
  hot : Hotlist
  store : TableStore
  gate : Gate
  ring : Ring
  journal : Journal
  draws : Nat

/-- The kept items of a state: everything but the Air Channels, the arbiter, the merge state, the local
hotlist and what waits for it, the queues that ring-out takes from, and what the leaves and indicators
show. -/
def settledItems (s : State) : SettledItems :=
  { standingItems := standing s, taps := s.taps, engines := s.engines, contexts := s.contexts
    sightings := s.sightings, store := s.store
    hot := { s.hot with merge := .idle, localList := [], localFull := false, waiting := [] }
    gate :=
      { s.gate with
        leaf := .close, leafGiven := [], leafCause := ⟨.closed, none⟩, indicator := ⟨.ready, .ready⟩ }
    ring := { s.ring with forward := [], insertion := [], filled := [], sending := none }
    journal := s.journal, draws := s.draws }

theorem enableChannel_settled (sd : Side) (s : State) :
    settledItems (enableChannel sd s) = settledItems s := by
  unfold enableChannel
  repeat' split
  all_goals rfl

theorem mergeResume_settled (s : State) : settledItems (mergeResume s) = settledItems s := by
  unfold mergeResume
  split <;> rfl

theorem mergeLook_settled (s : State) : settledItems (mergeLook s) = settledItems s := by
  unfold mergeLook
  repeat' split
  all_goals rfl

theorem addLocal_kept (u : Uid) (h : Hotlist) :
    { addLocal u h with merge := .idle, localList := [], localFull := false, waiting := [] } =
      { h with merge := .idle, localList := [], localFull := false, waiting := [] } := by
  unfold addLocal
  repeat' split
  all_goals rfl

theorem takeAdditions_kept (h : Hotlist) :
    { takeAdditions h with merge := .idle, localList := [], localFull := false, waiting := [] } =
      { h with merge := .idle, localList := [], localFull := false, waiting := [] } := by
  have key : ∀ (us : List Uid) (g : Hotlist),
      { us.foldl (fun h u => addLocal u h) g with
        merge := .idle, localList := [], localFull := false, waiting := [] } =
      { g with merge := .idle, localList := [], localFull := false, waiting := [] } := by
    intro us
    induction us with
    | nil => exact fun _ => rfl
    | cons u rest ih => exact fun g => (ih _).trans (addLocal_kept u g)
  exact key h.waiting _

/-- With no addition waiting, none is taken. -/
theorem takeAdditions_none {h : Hotlist} (hw : h.waiting = []) : takeAdditions h = h := by
  cases h
  cases hw
  rfl

theorem addLocal_waiting (u : Uid) (h : Hotlist) : (addLocal u h).waiting = h.waiting := by
  unfold addLocal
  repeat' split
  all_goals rfl

/-- After the additions have been taken none waits. -/
theorem takeAdditions_waiting (h : Hotlist) : (takeAdditions h).waiting = [] := by
  have key : ∀ (us : List Uid) (g : Hotlist),
      (us.foldl (fun h u => addLocal u h) g).waiting = g.waiting := by
    intro us
    induction us with
    | nil => exact fun _ => rfl
    | cons u rest ih => exact fun g => (ih _).trans (addLocal_waiting u g)
  exact key h.waiting _

theorem modHot_takeAdditions_settled (s : State) :
    settledItems (modHot takeAdditions s) = settledItems s := by
  show ({ settledItems s with hot := _ } : SettledItems) = settledItems s
  rw [modHot_hot, takeAdditions_kept]
  rfl

theorem arbitrate_settled (s : State) : settledItems (arbitrate s) = settledItems s := by
  unfold arbitrate
  split
  · exact mergeResume_settled s
  · rw [mergeResume_settled]
    exact (mergeLook_settled _).trans
      ((mergeResume_settled _).trans (modHot_takeAdditions_settled s))

theorem takeOwn_settled (s : State) : settledItems (takeOwn s) = settledItems s := by
  unfold takeOwn
  repeat' split
  all_goals rfl

theorem ringOutTake_settled (s : State) : settledItems (ringOutTake s) = settledItems s := by
  unfold ringOutTake
  repeat' split
  · rfl
  · rfl
  · exact takeOwn_settled s
  · rfl

theorem driveLeaves_settled (s : State) : settledItems (driveLeaves s) = settledItems s := rfl

theorem driveIndicators_settled (s : State) : settledItems (driveIndicators s) = settledItems s := rfl

/-- The end of an event leaves these items as it finds them. -/
theorem settle_settled (s : State) : settledItems (settle s) = settledItems s := by
  unfold settle
  rw [driveIndicators_settled, driveLeaves_settled, ringOutTake_settled, arbitrate_settled,
    enableChannel_settled, enableChannel_settled]

/-! ### Field by field -/

@[simp] theorem settle_taps (s : State) : (settle s).taps = s.taps :=
  congrArg SettledItems.taps (settle_settled s)
@[simp] theorem settle_engines (s : State) : (settle s).engines = s.engines :=
  congrArg SettledItems.engines (settle_settled s)
@[simp] theorem settle_contexts (s : State) : (settle s).contexts = s.contexts :=
  congrArg SettledItems.contexts (settle_settled s)
@[simp] theorem settle_sightings (s : State) : (settle s).sightings = s.sightings :=
  congrArg SettledItems.sightings (settle_settled s)
@[simp] theorem settle_store (s : State) : (settle s).store = s.store :=
  congrArg SettledItems.store (settle_settled s)
@[simp] theorem settle_journal (s : State) : (settle s).journal = s.journal :=
  congrArg SettledItems.journal (settle_settled s)
@[simp] theorem settle_draws (s : State) : (settle s).draws = s.draws :=
  congrArg SettledItems.draws (settle_settled s)
@[simp] theorem settle_pending (s : State) : (settle s).pending = s.pending :=
  congrArg Standing.pending (settle_standing s)
@[simp] theorem settle_power (s : State) : (settle s).power = s.power :=
  congrArg Standing.power (settle_standing s)
@[simp] theorem settle_emerg (s : State) : (settle s).emerg = s.emerg :=
  congrArg Standing.emerg (settle_standing s)
@[simp] theorem settle_keyload (s : State) : (settle s).keyload = s.keyload :=
  congrArg Standing.keyload (settle_standing s)
@[simp] theorem settle_clock (s : State) : (settle s).clock = s.clock :=
  congrArg Standing.clock (settle_standing s)
@[simp] theorem settle_decoder (s : State) : (settle s).decoder = s.decoder :=
  congrArg Standing.decoder (settle_standing s)
@[simp] theorem settle_ringEngine (s : State) : (settle s).ringEngine = s.ringEngine :=
  congrArg Standing.ringEngine (settle_standing s)
@[simp] theorem settle_loader (s : State) : (settle s).loader = s.loader :=
  congrArg Standing.loader (settle_standing s)
@[simp] theorem settle_keys (s : State) : (settle s).keys = s.keys :=
  congrArg Standing.keys (settle_standing s)

@[simp] theorem settle_alarm (s : State) : (settle s).gate.alarm = s.gate.alarm :=
  congrArg (fun x => x.gate.alarm) (settle_settled s)
@[simp] theorem settle_freeFlag (s : State) : (settle s).gate.freeFlag = s.gate.freeFlag :=
  congrArg (fun x => x.gate.freeFlag) (settle_settled s)
@[simp] theorem settle_queue (s : State) : (settle s).gate.queue = s.gate.queue :=
  congrArg (fun x => x.gate.queue) (settle_settled s)
@[simp] theorem settle_reserved (s : State) : (settle s).gate.reserved = s.gate.reserved :=
  congrArg (fun x => x.gate.reserved) (settle_settled s)
@[simp] theorem settle_occupancy (s : State) : (settle s).gate.occupancy = s.gate.occupancy :=
  congrArg (fun x => x.gate.occupancy) (settle_settled s)
@[simp] theorem settle_passTimer (s : State) : (settle s).gate.passTimer = s.gate.passTimer :=
  congrArg (fun x => x.gate.passTimer) (settle_settled s)
@[simp] theorem settle_stopTimer (s : State) : (settle s).gate.stopTimer = s.gate.stopTimer :=
  congrArg (fun x => x.gate.stopTimer) (settle_settled s)

@[simp] theorem settle_gateNo (s : State) : (settle s).ring.gateNo = s.ring.gateNo :=
  congrArg (fun x => x.ring.gateNo) (settle_settled s)
@[simp] theorem settle_intentReserved (s : State) :
    (settle s).ring.intentReserved = s.ring.intentReserved :=
  congrArg (fun x => x.ring.intentReserved) (settle_settled s)
@[simp] theorem settle_held (s : State) : (settle s).ring.held = s.ring.held :=
  congrArg (fun x => x.ring.held) (settle_settled s)
@[simp] theorem settle_sent (s : State) : (settle s).ring.sent = s.ring.sent :=
  congrArg (fun x => x.ring.sent) (settle_settled s)
@[simp] theorem settle_duplicate (s : State) : (settle s).ring.duplicate = s.ring.duplicate :=
  congrArg (fun x => x.ring.duplicate) (settle_settled s)
@[simp] theorem settle_joined (s : State) : (settle s).ring.joined = s.ring.joined :=
  congrArg (fun x => x.ring.joined) (settle_settled s)
@[simp] theorem settle_watch (s : State) : (settle s).ring.watch = s.ring.watch :=
  congrArg (fun x => x.ring.watch) (settle_settled s)
@[simp] theorem settle_repeater (s : State) : (settle s).ring.repeater = s.ring.repeater :=
  congrArg (fun x => x.ring.repeater) (settle_settled s)
@[simp] theorem settle_restartPeriod (s : State) :
    (settle s).ring.restartPeriod = s.ring.restartPeriod :=
  congrArg (fun x => x.ring.restartPeriod) (settle_settled s)

/-! ### The Hotlist Store -/

/-- The local additions that the end of an event takes: all that wait, at a free port (R174). -/
def additionsTaken (s : State) : Hotlist :=
  if s.arb.inUse.isSome then s.hot else takeAdditions s.hot

theorem mergeResume_hot (s : State) : ∃ m, (mergeResume s).hot = { s.hot with merge := m } := by
  unfold mergeResume
  split
  · exact ⟨_, rfl⟩
  · exact ⟨s.hot.merge, rfl⟩

theorem mergeLook_hot (s : State) : ∃ m, (mergeLook s).hot = { s.hot with merge := m } := by
  unfold mergeLook
  repeat' split
  · exact ⟨_, rfl⟩
  · exact ⟨s.hot.merge, rfl⟩
  · exact ⟨s.hot.merge, rfl⟩

theorem arbitrate_hot (s : State) : ∃ m, (arbitrate s).hot = { additionsTaken s with merge := m } := by
  unfold arbitrate additionsTaken
  split
  · exact mergeResume_hot s
  · obtain ⟨m₁, h₁⟩ := mergeResume_hot (modHot takeAdditions s)
    obtain ⟨m₂, h₂⟩ := mergeLook_hot (mergeResume (modHot takeAdditions s))
    obtain ⟨m₃, h₃⟩ :=
      mergeResume_hot (modArb beginGrant (mergeLook (mergeResume (modHot takeAdditions s))))
    refine ⟨m₃, ?_⟩
    rw [h₃, modArb_hot, h₂, h₁, modHot_hot]

theorem enableChannel_hot (sd : Side) (s : State) : (enableChannel sd s).hot = s.hot := by
  unfold enableChannel
  repeat' split
  all_goals rfl

theorem enableChannel_arb (sd : Side) (s : State) : (enableChannel sd s).arb = s.arb := by
  unfold enableChannel
  repeat' split
  all_goals rfl

theorem ringOutTake_hot (s : State) : (ringOutTake s).hot = s.hot := by
  unfold ringOutTake takeOwn
  repeat' split
  all_goals rfl

@[simp] theorem driveLeaves_hot (s : State) : (driveLeaves s).hot = s.hot := rfl

/-- The Hotlist Store after the end of an event: the additions that wait are taken at a free port, and the
Merge Engine may suspend or resume (R174, R117). -/
theorem settle_hot (s : State) : ∃ m, (settle s).hot = { additionsTaken s with merge := m } := by
  obtain ⟨m, h⟩ := arbitrate_hot (enableChannel .b (enableChannel .a s))
  refine ⟨m, ?_⟩
  show (ringOutTake _).hot = _
  rw [ringOutTake_hot, h]
  unfold additionsTaken
  rw [enableChannel_arb, enableChannel_arb, enableChannel_hot, enableChannel_hot]

/-- With no addition waiting, or with a grant in use, the end of an event leaves the local hotlist. -/
theorem settle_localList {s : State} (h : s.arb.inUse.isSome ∨ s.hot.waiting = []) :
    (settle s).hot.localList = s.hot.localList := by
  obtain ⟨m, hm⟩ := settle_hot s
  rw [hm]
  unfold additionsTaken
  split
  · rfl
  · rw [takeAdditions_none (h.resolve_left ‹_›)]

/-! ### What the gate state reads is among the kept items -/

/-- The gate state reads only the EMERG pin, the free flag, the alarm and the queue, the store, the set
flag and DUPLICATE_NUMBER. -/
theorem gateState_congr {s t : State} (he : t.emerg = s.emerg) (hf : t.gate.freeFlag = s.gate.freeFlag)
    (ha : t.gate.alarm = s.gate.alarm) (hq : t.gate.queue = s.gate.queue) (hs : t.store = s.store)
    (hc : t.clock.isSet = s.clock.isSet) (hd : t.ring.duplicate = s.ring.duplicate) :
    gateState t = gateState s := by
  unfold gateState outOfService
  rw [he, hf, ha, hq, hs, hc, hd]

@[simp] theorem settle_gateState (s : State) : gateState (settle s) = gateState s :=
  gateState_congr (by simp) (by simp) (by simp) (by simp) (by simp) (by simp) (by simp)

@[simp] theorem settle_sideEnabled (s : State) (sd : Side) :
    sideEnabled (settle s) sd = sideEnabled s sd := by
  simp [sideEnabled, setupIncludes]

@[simp] theorem settle_indicatorOf (s : State) (sd : Side) :
    indicatorOf (settle s) sd = indicatorOf s sd := by
  simp [indicatorOf, indicatorBelowStop, setupIncludes]

/-! ### What the end of an event brings about -/

@[simp] theorem driveLeaves_leaf (s : State) :
    (driveLeaves s).gate.leaf = leafOf (gateState s) := rfl
@[simp] theorem driveLeaves_leafCause (s : State) :
    (driveLeaves s).gate.leafCause = leafCause s := rfl
@[simp] theorem driveLeaves_leafGiven (s : State) :
    (driveLeaves s).gate.leafGiven = s.gate.leafGiven ++ leafChange s.gate.leafCause (leafCause s) :=
  rfl

/-- Nothing is given where what the commands follow stands. -/
theorem leafChange_self (c : LeafCause) : leafChange c c = [] := by
  unfold leafChange
  split
  · rename_i x y hx hy
    rw [hx] at hy
    cases hy
    exact if_pos rfl
  · exact if_pos rfl

/-- From one open direction to another the leaves turn by way of close, and within one they stay. -/
theorem leafChange_turn {old new : LeafCause} {x y : Side} (hx : leafOf old.state = .openToward x)
    (hy : leafOf new.state = .openToward y) :
    leafChange old new = if x = y then [] else [.close, .openToward y] := by
  unfold leafChange
  rw [hx, hy]

/-- Any other change gives the command of the new state. -/
theorem leafChange_change {old new : LeafCause}
    (h : ∀ x y, ¬ (leafOf old.state = .openToward x ∧ leafOf new.state = .openToward y)) :
    leafChange old new = if old = new then [] else [leafOf new.state] := by
  unfold leafChange
  split
  · rename_i x y hx hy
    exact absurd ⟨hx, hy⟩ (h x y)
  · rfl

/-- After every event of a running part the leaves and both indicators follow the state. -/
theorem settle_shows (s : State) : Shows (settle s) := by
  have hs : settledItems (ringOutTake (arbitrate (enableChannel .b (enableChannel .a s)))) =
      settledItems s := by
    rw [ringOutTake_settled, arbitrate_settled, enableChannel_settled, enableChannel_settled]
  have hg := gateState_congr
    (congrArg (fun x => x.standingItems.emerg) hs) (congrArg (fun x => x.gate.freeFlag) hs)
    (congrArg (fun x => x.gate.alarm) hs) (congrArg (fun x => x.gate.queue) hs)
    (congrArg (fun x => x.store) hs) (congrArg (fun x => x.standingItems.clock.isSet) hs)
    (congrArg (fun x => x.ring.duplicate) hs)
  refine ⟨?_, ?_, ?_, ?_⟩
  · rw [settle_gateState, settle_alarm]
    show (⟨gateState _, _⟩ : LeafCause) = _
    rw [hg]
    exact congrArg _ (congrArg (fun x => x.gate.alarm) hs)
  · rw [settle_gateState]
    show leafOf (gateState _) = _
    rw [hg]
  · rfl
  · rfl

/-! ### Channels -/

theorem mergeResume_chans (s : State) : (mergeResume s).chans = s.chans := by
  unfold mergeResume
  split <;> rfl

theorem mergeLook_chans (s : State) : (mergeLook s).chans = s.chans := by
  unfold mergeLook
  repeat' split
  all_goals rfl

theorem arbitrate_chans (s : State) : (arbitrate s).chans = s.chans := by
  unfold arbitrate
  split
  · exact mergeResume_chans s
  · rw [mergeResume_chans]
    exact (mergeLook_chans _).trans (mergeResume_chans _)

theorem ringOutTake_chans (s : State) : (ringOutTake s).chans = s.chans := by
  unfold ringOutTake takeOwn
  repeat' split
  all_goals rfl

@[simp] theorem driveLeaves_chans (s : State) : (driveLeaves s).chans = s.chans := rfl

/-- What the enabled condition makes of one channel (R16). -/
def channelEnabled (enabled : Bool) (c : Channel) : Channel :=
  match c.state with
  | .off =>
    if enabled then
      { c with
        state := .polling, outstanding := some ⟨.wake, 1⟩, answerTimer := some 5, pollTimer := some 10 }
    else c
  | .polling => if enabled then c else Channel.cold
  | .awaitRemoval => if enabled then c else Channel.cold
  | .engaged => c

theorem enableChannel_get (sd d : Side) (s : State) :
    (enableChannel sd s).chans.get d =
      if d = sd then channelEnabled (sideEnabled s sd) (s.chans.get sd) else s.chans.get d := by
  unfold enableChannel channelEnabled
  cases h : (s.chans.get sd).state <;> cases he : sideEnabled s sd <;> cases sd <;> cases d <;>
    simp_all [switchOn, switchOff, sendWake, sendCommand, modChan, setChan, windowOf, Sided.get,
      Sided.set]

theorem enableChannel_sideEnabled (sd d : Side) (s : State) :
    sideEnabled (enableChannel sd s) d = sideEnabled s d := by
  have h := enableChannel_settled sd s
  have hg : gateState (enableChannel sd s) = gateState s :=
    gateState_congr (congrArg (fun x => x.standingItems.emerg) h)
      (congrArg (fun x => x.gate.freeFlag) h) (congrArg (fun x => x.gate.alarm) h)
      (congrArg (fun x => x.gate.queue) h) (congrArg (fun x => x.store) h)
      (congrArg (fun x => x.standingItems.clock.isSet) h) (congrArg (fun x => x.ring.duplicate) h)
  have hst : (enableChannel sd s).store = s.store := congrArg (fun x => x.store) h
  simp only [sideEnabled, setupIncludes, hg, hst]

/-- The channel of a side after the end of an event (R16). -/
theorem settle_chan (s : State) (sd : Side) :
    (settle s).chans.get sd = channelEnabled (sideEnabled s sd) (s.chans.get sd) := by
  have h : (settle s).chans = (enableChannel .b (enableChannel .a s)).chans := by
    show (ringOutTake _).chans = _
    rw [ringOutTake_chans, arbitrate_chans]
  rw [h]
  cases sd <;> simp [enableChannel_get, enableChannel_sideEnabled]

end Sys2Proof.Machine
end

