-- ==== Sys2Proof/Laws/Capacities.lean ====
section
/-! SUPPORT. The capacities of the tables and queues
    (Sys2Proof/Safety.lean) are kept by every shared
operation. One lemma for each operation. -/

namespace Sys2Proof.Machine

/-- The capacities of the Ring Interface. -/
def RingHolds (r : Ring) : Prop :=
  r.insertion.length + r.intentReserved ≤ 32 ∧ r.forward.length ≤ 4 ∧ r.sent.length ≤ 16 ∧
    r.held + r.filled.length ≤ 4

theorem Capacities.ring {s : State} (h : Capacities s) : RingHolds s.ring :=
  ⟨h.insertion, h.forward, h.sent, h.answers⟩

/-- The capacities of the Hotlist Store. -/
def HotHolds (h : Hotlist) : Prop := h.localList.length ≤ 256 ∧ h.deltaOps.length ≤ 512

theorem Capacities.hot {s : State} (h : Capacities s) : HotHolds s.hot := ⟨h.localList, h.delta⟩

theorem modRing_capacities (f : Ring → Ring) (s : State) (h : Capacities s)
    (hf : RingHolds (f s.ring)) : Capacities (modRing f s) :=
  ⟨h.1, h.2, h.3, h.4, h.5, hf.1, hf.2.1, hf.2.2.1, hf.2.2.2, h.10, h.11, h.12, h.13⟩

theorem modJournal_capacities (f : Journal → Journal) (s : State) (h : Capacities s)
    (hf : (f s.journal).records.length + (f s.journal).reserved ≤ 1024) :
    Capacities (modJournal f s) := ⟨h.1, h.2, h.3, h.4, hf, h.6, h.7, h.8, h.9, h.10, h.11, h.12, h.13⟩

theorem modGate_capacities (f : Gate → Gate) (s : State) (h : Capacities s)
    (hf : (f s.gate).queue.length + (f s.gate).reserved ≤ 2) : Capacities (modGate f s) :=
  ⟨h.1, h.2, h.3, hf, h.5, h.6, h.7, h.8, h.9, h.10, h.11, h.12, h.13⟩

theorem modHot_capacities (f : Hotlist → Hotlist) (s : State) (h : Capacities s)
    (hf : HotHolds (f s.hot)) : Capacities (modHot f s) :=
  ⟨h.1, h.2, hf.1, h.4, h.5, h.6, h.7, h.8, h.9, hf.2, h.11, h.12, h.13⟩

theorem modStore_capacities (f : TableStore → TableStore) (s : State) (h : Capacities s) :
    Capacities (modStore f s) := ⟨h.1, h.2, h.3, h.4, h.5, h.6, h.7, h.8, h.9, h.10, h.11, h.12, h.13⟩

theorem foldl_capacities {α : Type} (f : State → α → State)
    (hf : ∀ s a, Capacities s → Capacities (f s a)) (l : List α) (s : State) (h : Capacities s) :
    Capacities (l.foldl f s) := by
  induction l generalizing s with
  | nil => exact h
  | cons a rest ih => exact ih _ (hf s a h)

theorem closeFirst_length (sd : Side) (missed : Bool) (l : List JournalRecord) :
    (closeFirst sd missed l).length = l.length := by
  induction l with
  | nil => rfl
  | cons r rest ih =>
    unfold closeFirst
    split <;> simp [ih]

theorem displaceFirst_length {l l' : List LineMsg} (h : displaceFirst l = some l') :
    l'.length + 1 = l.length := by
  induction l generalizing l' with
  | nil => cases h
  | cons m rest ih =>
    unfold displaceFirst at h
    split at h
    · obtain ⟨x, hx, rfl⟩ := Option.map_eq_some_iff.mp h
      simp [ih hx]
    · cases h
      rfl

theorem joinInsertion_holds (m : LineMsg) {r : Ring} (h : RingHolds r) :
    RingHolds (joinInsertion m r) := by
  obtain ⟨h1, h2⟩ := h
  unfold joinInsertion insertionUsed
  split
  · exact ⟨by simp; omega, h2⟩
  · split
    · rename_i l hl
      have := displaceFirst_length hl
      exact ⟨by simp; omega, h2⟩
    · exact ⟨h1, h2⟩

theorem withdrawMsg_holds (m : LineMsg) {r : Ring} (h : RingHolds r) :
    RingHolds (withdrawMsg m r) := by
  obtain ⟨h1, h2⟩ := h
  refine ⟨?_, h2⟩
  have := List.length_erase_le (a := m) (l := r.insertion.reverse)
  simp only [List.length_reverse] at this
  simp only [withdrawMsg, List.length_reverse]
  omega

theorem enterSent_holds (e : SentEntry) {r : Ring} (h : RingHolds r) : RingHolds
    (enterSent e r) := by
  obtain ⟨h1, h2, h3, h4⟩ := h
  unfold enterSent
  split
  · exact ⟨h1, h2, by simp; omega, h4⟩
  · exact ⟨h1, h2, h3, h4⟩

/-- A reservation granted leaves at least one reservation in the insertion queue. -/
theorem reserveIntent_holds {r r' : Ring} (hr : reserveIntent r = some r') (h : RingHolds r) :
    RingHolds r' ∧ 1 ≤ r'.intentReserved := by
  obtain ⟨h1, h2⟩ := h
  unfold reserveIntent insertionUsed at hr
  split at hr
  · cases hr
    exact ⟨⟨by simp; omega, h2⟩, by simp⟩
  · obtain ⟨l, hl, rfl⟩ := Option.map_eq_some_iff.mp hr
    have := displaceFirst_length hl
    exact ⟨⟨by simp; omega, h2⟩, by simp⟩

theorem addLocal_holds (u : Uid) {h : Hotlist} (hl : HotHolds h) : HotHolds (addLocal u h) := by
  obtain ⟨h1, h2⟩ := hl
  unfold addLocal
  repeat' split
  all_goals first | exact ⟨h1, h2⟩ | exact ⟨by simp; omega, h2⟩

theorem takeAdditions_holds {h : Hotlist} (hl : HotHolds h) : HotHolds (takeAdditions h) := by
  have key : ∀ (us : List Uid) (h : Hotlist), HotHolds h →
      HotHolds (us.foldl (fun h u => addLocal u h) h) := by
    intro us
    induction us with
    | nil => exact fun _ hl => hl
    | cons u rest ih => exact fun h hl => ih _ (addLocal_holds u hl)
  exact key h.waiting _ hl

theorem abandonMerge_holds {h : Hotlist} (hl : HotHolds h) : HotHolds (abandonMerge h) := by
  unfold abandonMerge
  split <;> exact hl

theorem setShadow_holds {es : List HotEntry} {h : Hotlist} (hl : HotHolds h) :
    HotHolds (setShadow es h) := by
  unfold setShadow
  split <;> exact hl

theorem pruneLocal_holds {h : Hotlist} (hl : HotHolds h) : HotHolds (pruneLocal h) :=
  ⟨Nat.le_trans (List.length_filter_le _ _) hl.1, hl.2⟩

theorem swapBanks_holds (version : Nat) {h : Hotlist} (hl : HotHolds h) :
    HotHolds (swapBanks version h) := pruneLocal_holds ⟨hl.1, Nat.zero_le _⟩

theorem mergeTake_holds {h : Hotlist} (hl : HotHolds h) : HotHolds (mergeTake h) := by
  unfold mergeTake
  repeat' split
  all_goals first | exact hl | exact setShadow_holds (h := h) hl

theorem mergeAdvance_holds {h : Hotlist} (hl : HotHolds h) : HotHolds (mergeAdvance h) := by
  have ht := mergeTake_holds hl
  unfold mergeAdvance
  dsimp only
  split
  · exact swapBanks_holds _ ht
  · exact ht

/-- A delta that passes the contents check has 512 operations at most. -/
theorem parseDelta_length {img : List Byte} {ops : List DeltaOp} (h : parseDelta img = some ops) :
    ops.length ≤ 512 := by
  have key : ∀ (l : List (Option DeltaOp)) (ops : List DeltaOp), allSome l = some ops →
      ops.length = l.length := by
    intro l
    induction l with
    | nil => intro ops h; cases h; rfl
    | cons o rest ih =>
      intro ops h
      cases o with
      | none => cases h
      | some o =>
        simp only [allSome, Option.map_eq_some_iff] at h
        obtain ⟨x, hx, rfl⟩ := h
        simp [ih x hx]
  unfold parseDelta at h
  dsimp only at h
  split at h
  · rename_i hc
    split at h
    · rename_i ops' ho
      split at h
      · cases h
        have := key _ _ ho
        simp at this
        omega
      · cases h
    · cases h
  · cases h

/-! ### One entry and one context for a UID -/

/-- A table of keys stays without repeats when its entries keep their keys. -/
theorem nodup_map_of_keys {α β : Type} {key : α → β} {f : α → α} {l : List α}
    (h : (l.map key).Nodup) (hf : ∀ a ∈ l, key (f a) = key a) : ((l.map f).map key).Nodup := by
  have : (l.map f).map key = l.map key := by
    rw [List.map_map]
    exact List.map_congr_left hf
  rwa [this]

theorem nodup_filter {α β : Type} {key : α → β} {p : α → Bool} {l : List α}
    (h : (l.map key).Nodup) : ((l.filter p).map key).Nodup :=
  h.sublist (List.filter_sublist.map key)

theorem nodup_append_new {α β : Type} {key : α → β} {l : List α} {a : α}
    (h : (l.map key).Nodup) (ha : ∀ x ∈ l, key x ≠ key a) : ((l ++ [a]).map key).Nodup := by
  rw [List.map_append, List.nodup_append]
  refine ⟨h, by simp, ?_⟩
  intro x hx y hy
  obtain ⟨z, hz, rfl⟩ := List.mem_map.mp hx
  simp only [List.map_cons, List.map_nil, List.mem_singleton] at hy
  subst hy
  exact ha z hz

/-- An entry of a UID whose displaced sighting is of that UID too. -/
def EntryOf (u : Uid) (e : SightEntry) : Prop :=
  e.sighting.uid = u ∧ ∀ d, e.displaced = some d → d.sighting.uid = u

theorem entryOf_none {s : State} {u : Uid} (h : entryOf s u = none) :
    ∀ e ∈ s.sightings, e.sighting.uid ≠ u := by
  intro e he hu
  have := List.find?_eq_none.mp h e he
  simp [hu] at this

theorem entryOf_some {s : State} {u : Uid} {e : SightEntry} (hs : Capacities s)
    (h : entryOf s u = some e) : e ∈ s.sightings ∧ EntryOf u e := by
  have hm := List.mem_of_find?_eq_some h
  have hu : e.sighting.uid = u := by simpa using List.find?_some h
  exact ⟨hm, hu, fun d hd => (hs.displaced e hm d hd).trans hu⟩

theorem Capacities.withSightings {s : State} {l : List SightEntry} (h : Capacities s)
    (hl : l.length ≤ 2048) (hn : (l.map (fun e => e.sighting.uid)).Nodup)
    (hd : ∀ e ∈ l, ∀ d, e.displaced = some d → d.sighting.uid = e.sighting.uid) :
    Capacities { s with sightings := l } :=
  ⟨h.1, hl, h.3, h.4, h.5, h.6, h.7, h.8, h.9, h.10, h.11, hn, hd⟩

theorem Capacities.filterSightings {s : State} (p : SightEntry → Bool) (h : Capacities s) :
    Capacities { s with sightings := s.sightings.filter p } :=
  h.withSightings (Nat.le_trans (List.length_filter_le _ _) h.2) (nodup_filter h.oneEntry)
    (fun e he => h.displaced e (List.mem_filter.mp he).1)

theorem Capacities.withContexts {s : State} {l : List Context} (h : Capacities s)
    (hl : l.length ≤ 32) (hn : (l.map Context.uid).Nodup) : Capacities { s with contexts := l } :=
  ⟨hl, h.2, h.3, h.4, h.5, h.6, h.7, h.8, h.9, h.10, hn, h.12, h.13⟩

theorem oldestUnpinned_mem {l : List SightEntry} {o : SightEntry} (h : oldestUnpinned l = some o) :
    o ∈ l := by
  induction l generalizing o with
  | nil => cases h
  | cons e rest ih =>
    unfold oldestUnpinned at h
    split at h
    · split at h
      · cases h
      · cases h
        exact List.mem_cons_self
    · rename_i o' ho'
      split at h
      · cases h
        exact List.mem_cons_of_mem _ (ih ho')
      · split at h
        · cases h
          exact List.mem_cons_self
        · cases h
          exact List.mem_cons_of_mem _ (ih ho')

theorem insertEntry_capacities (e : SightEntry) (s : State) (h : Capacities s)
    (hn : ∀ x ∈ s.sightings, x.sighting.uid ≠ e.sighting.uid)
    (hd : ∀ d, e.displaced = some d → d.sighting.uid = e.sighting.uid) :
    Capacities (insertEntry e s) := by
  have key : ∀ l : List SightEntry, l.Sublist s.sightings → l.length + 1 ≤ 2048 →
      Capacities { s with sightings := l ++ [e] } := by
    intro l hl hc
    refine h.withSightings (by simpa using hc)
      (nodup_append_new (h.oneEntry.sublist (hl.map _)) (fun x hx => hn x (hl.subset hx))) ?_
    intro x hx
    rcases List.mem_append.mp hx with hx | hx
    · exact h.displaced x (hl.subset hx)
    · rw [List.mem_singleton.mp hx]
      exact hd
  unfold insertEntry
  split
  · exact key _ (List.Sublist.refl _) (by omega)
  · split
    · rename_i o ho
      have hm := List.length_erase_of_mem (oldestUnpinned_mem ho)
      have := h.sightings
      exact key _ List.erase_sublist (by omega)
    · exact h

theorem insertEntry_ring (e : SightEntry) (s : State) : (insertEntry e s).ring = s.ring := by
  unfold insertEntry
  repeat' split
  all_goals rfl

theorem claimEntry_ring (x : Sighting) (s : State) : (claimEntry x s).ring = s.ring := by
  unfold claimEntry
  split
  · exact insertEntry_ring _ _
  · rfl

theorem setChan_capacities (sd : Side) (c : Channel) (s : State)
    (h : Capacities s) : Capacities (setChan sd c s) := by
  exact ⟨h.1, h.2, h.3, h.4, h.5, h.6, h.7, h.8, h.9, h.10, h.11, h.12, h.13⟩

theorem modChan_capacities (sd : Side) (f : Channel → Channel) (s : State)
    (h : Capacities s) : Capacities (modChan sd f s) := by
  exact ⟨h.1, h.2, h.3, h.4, h.5, h.6, h.7, h.8, h.9, h.10, h.11, h.12, h.13⟩

theorem setTap_capacities (sd : Side) (t : Tap) (s : State)
    (h : Capacities s) : Capacities (setTap sd t s) := by
  exact ⟨h.1, h.2, h.3, h.4, h.5, h.6, h.7, h.8, h.9, h.10, h.11, h.12, h.13⟩

theorem modTap_capacities (sd : Side) (f : Tap → Tap) (s : State)
    (h : Capacities s) : Capacities (modTap sd f s) := by
  exact ⟨h.1, h.2, h.3, h.4, h.5, h.6, h.7, h.8, h.9, h.10, h.11, h.12, h.13⟩

theorem modRecord_capacities (sd : Side) (f : TapRecord → TapRecord) (s : State)
    (h : Capacities s) : Capacities (modRecord sd f s) := by
  exact ⟨h.1, h.2, h.3, h.4, h.5, h.6, h.7, h.8, h.9, h.10, h.11, h.12, h.13⟩

theorem setEngine_capacities (sd : Side) (j : Option ChanJob) (s : State)
    (h : Capacities s) : Capacities (setEngine sd j s) := by
  exact ⟨h.1, h.2, h.3, h.4, h.5, h.6, h.7, h.8, h.9, h.10, h.11, h.12, h.13⟩

theorem modArb_capacities (f : Arbiter → Arbiter) (s : State)
    (h : Capacities s) : Capacities (modArb f s) := by
  exact ⟨h.1, h.2, h.3, h.4, h.5, h.6, h.7, h.8, h.9, h.10, h.11, h.12, h.13⟩

theorem modClock_capacities (f : Clock → Clock) (s : State)
    (h : Capacities s) : Capacities (modClock f s) := by
  exact ⟨h.1, h.2, h.3, h.4, h.5, h.6, h.7, h.8, h.9, h.10, h.11, h.12, h.13⟩

theorem modDecoder_capacities (f : Decoder → Decoder) (s : State)
    (h : Capacities s) : Capacities (modDecoder f s) := by
  exact ⟨h.1, h.2, h.3, h.4, h.5, h.6, h.7, h.8, h.9, h.10, h.11, h.12, h.13⟩

theorem setTapState_capacities (sd : Side) (st : TapState) (s : State)
    (h : Capacities s) : Capacities (setTapState sd st s) := by
  exact ⟨h.1, h.2, h.3, h.4, h.5, h.6, h.7, h.8, h.9, h.10, h.11, h.12, h.13⟩

theorem modCounters_capacities (f : Counters → Counters) (s : State)
    (h : Capacities s) : Capacities (modCounters f s) := by
  exact ⟨h.1, h.2, h.3, h.4, h.5, h.6, h.7, h.8, h.9, h.10, h.11, h.12, h.13⟩

theorem offerRecord_capacities (r : JournalRecord) (s : State)
    (h : Capacities s) : Capacities (offerRecord r s) := by
  unfold offerRecord
  split
  · refine modJournal_capacities _ _ h ?_
    have := h.journal
    simp only [journalAvailable] at *
    simp [storeRecord]
    omega
  · exact ⟨h.1, h.2, h.3, h.4, h.5, h.6, h.7, h.8, h.9, h.10, h.11, h.12, h.13⟩

theorem convertRecord_capacities (r : JournalRecord) (s : State)
    (h : Capacities s) : Capacities (convertRecord r s) := by
  refine modJournal_capacities _ _ h ?_
  have := h.journal
  dsimp only
  split
  · rename_i ha
    simp only [journalAvailable] at ha
    simp [storeRecord]
    omega
  · simp
    omega

theorem closeRecord_capacities (sd : Side) (missed : Bool) (s : State)
    (h : Capacities s) : Capacities (closeRecord sd missed s) := by
  refine modJournal_capacities _ _ h ?_
  have := h.journal
  simpa [closeFirst_length] using this

theorem releaseInsertion_capacities (sd : Side) (s : State)
    (h : Capacities s) : Capacities (releaseInsertion sd s) := by
  unfold releaseInsertion
  split
  · refine modRecord_capacities _ _ _ (modRing_capacities _ _ h ⟨?_, h.7, h.8, h.9⟩)
    have := h.insertion
    simp
    omega
  · exact h

theorem releaseJournal_capacities (sd : Side) (s : State)
    (h : Capacities s) : Capacities (releaseJournal sd s) := by
  unfold releaseJournal
  split
  · refine modRecord_capacities _ _ _ (modJournal_capacities _ _ h ?_)
    have := h.journal
    simp
    omega
  · exact h

theorem releaseGrantSlot_capacities (sd : Side) (s : State)
    (h : Capacities s) : Capacities (releaseGrantSlot sd s) := by
  unfold releaseGrantSlot
  split
  · refine modRecord_capacities _ _ _ (modGate_capacities _ _ h ?_)
    have := h.grants
    simp
    omega
  · exact h

theorem releaseReservations_capacities (sd : Side) (s : State)
    (h : Capacities s) : Capacities (releaseReservations sd s) := by
  unfold releaseReservations
  repeat' first
      | with_reducible exact h
      | with_reducible apply releaseInsertion_capacities
      | with_reducible apply releaseJournal_capacities
      | with_reducible apply releaseGrantSlot_capacities

theorem offerLocal_capacities (u : Uid) (s : State)
    (h : Capacities s) : Capacities (offerLocal u s) := by
  unfold offerLocal
  split
  · exact modHot_capacities _ _ h (addLocal_holds _ h.hot)
  · exact ⟨h.1, h.2, h.3, h.4, h.5, h.6, h.7, h.8, h.9, h.10, h.11, h.12, h.13⟩

theorem startStop_capacities (sd : Side) (category : StopCategory) (s : State)
    (h : Capacities s) : Capacities (startStop sd category s) := by
  exact ⟨h.1, h.2, h.3, h.4, h.5, h.6, h.7, h.8, h.9, h.10, h.11, h.12, h.13⟩

theorem sendCommand_capacities (sd : Side) (cmd : AirCommand) (attempt : Nat) (s : State)
    (h : Capacities s) : Capacities (sendCommand sd cmd attempt s) := by
  exact ⟨h.1, h.2, h.3, h.4, h.5, h.6, h.7, h.8, h.9, h.10, h.11, h.12, h.13⟩

theorem askHalt_capacities (sd : Side) (s : State)
    (h : Capacities s) : Capacities (askHalt sd s) := by
  exact ⟨h.1, h.2, h.3, h.4, h.5, h.6, h.7, h.8, h.9, h.10, h.11, h.12, h.13⟩

theorem writeSlot_capacities (n : Nat) (k : KeySlot) (s : State)
    (h : Capacities s) : Capacities (writeSlot n k s) := by
  unfold writeSlot
  repeat' split
  all_goals repeat' first
      | with_reducible exact h
      | exact ⟨h.1, h.2, h.3, h.4, h.5, h.6, h.7, h.8, h.9, h.10, h.11, h.12, h.13⟩

theorem removeContext_capacities (u : Uid) (s : State)
    (h : Capacities s) : Capacities (removeContext u s) := by
  exact h.withContexts (Nat.le_trans (List.length_filter_le _ _) h.1) (nodup_filter h.oneContext)

theorem expireContext_capacities (c : Context) (s : State)
    (h : Capacities s) : Capacities (expireContext c s) := by
  unfold expireContext
  repeat' first
      | with_reducible exact h
      | with_reducible apply offerRecord_capacities
      | with_reducible apply removeContext_capacities

theorem modContext_capacities (u : Uid) (f : Context → Context) (s : State)
    (h : Capacities s) (hf : ∀ c, c.uid = u → (f c).uid = u) :
    Capacities (modContext u f s) := by
  refine h.withContexts (by simpa using h.1) (nodup_map_of_keys h.oneContext ?_)
  intro c _
  split
  · rename_i hc
    exact (hf c hc).trans hc.symm
  · rfl

theorem releaseContext_capacities (sd : Side) (s : State)
    (h : Capacities s) : Capacities (releaseContext sd s) := by
  unfold releaseContext
  repeat' split
  all_goals repeat' first
      | with_reducible exact h
      | with_reducible apply expireContext_capacities
      | exact modContext_capacities _ _ _ (by with_reducible assumption) (fun _ hc => hc)
      | exact modContext_capacities _ _ _ (by with_reducible assumption) (fun _ _ => rfl)

theorem recordRefusal_capacities (sd : Side) (kind : JournalKind) (code : RefusalCode) (s : State)
    (h : Capacities s) : Capacities (recordRefusal sd kind code s) := by
  unfold recordRefusal
  repeat' first
      | with_reducible exact h
      | with_reducible apply modRecord_capacities
      | with_reducible apply modCounters_capacities
      | with_reducible apply offerRecord_capacities

theorem refuseSequence_capacities (sd : Side) (kind : JournalKind) (code : RefusalCode)
    (s : State) (h : Capacities s) : Capacities (refuseSequence sd kind code s) := by
  unfold refuseSequence
  repeat' first
      | with_reducible exact h
      | with_reducible apply releaseReservations_capacities
      | with_reducible apply startStop_capacities
      | with_reducible apply releaseContext_capacities
      | with_reducible apply recordRefusal_capacities

theorem refuse_capacities (sd : Side) (code : RefusalCode) (s : State)
    (h : Capacities s) : Capacities (refuse sd code s) := by
  unfold refuse
  repeat' first
      | with_reducible exact h
      | with_reducible apply askHalt_capacities
      | with_reducible apply refuseSequence_capacities

theorem purgeSightings_capacities (s : State)
    (h : Capacities s) : Capacities (purgeSightings s) := h.filterSightings _

theorem modEntry_capacities (u : Uid) (f : SightEntry → SightEntry) (s : State)
    (h : Capacities s) (hf : ∀ e ∈ s.sightings, EntryOf u e → EntryOf u (f e)) :
    Capacities (modEntry u f s) := by
  have key : ∀ e ∈ s.sightings, EntryOf e.sighting.uid (if e.sighting.uid = u then f e else e) := by
    intro e he
    have hd : EntryOf e.sighting.uid e := ⟨rfl, h.displaced e he⟩
    split
    · rename_i hu
      exact hu ▸ hf e he (hu ▸ hd)
    · exact hd
  refine h.withSightings (by simpa using h.2) (nodup_map_of_keys h.oneEntry fun e he => (key e he).1) ?_
  intro e he d hd
  obtain ⟨x, hx, rfl⟩ := List.mem_map.mp he
  exact ((key x hx).2 d hd).trans (key x hx).1.symm

theorem removeEntry_capacities (u : Uid) (s : State)
    (h : Capacities s) : Capacities (removeEntry u s) := h.filterSightings _

theorem cloneParty_capacities (sd : Side) (reason : FindingReason) (s : State)
    (h : Capacities s) : Capacities (cloneParty sd reason s) := by
  have ho := offerLocal_capacities (tapUid s sd) s h
  exact modRing_capacities _ _ ho (joinInsertion_holds _ ho.ring)

theorem takeUpMark_capacities (sd : Side) (s : State)
    (h : Capacities s) : Capacities (takeUpMark sd s) := by
  unfold takeUpMark
  repeat' split
  all_goals repeat' first
      | with_reducible exact h
      | with_reducible apply cloneParty_capacities

/-- A finding's sighting is of a UID. -/
def FindingOf (u : Uid) (finding : Option Displaced) : Prop :=
  ∀ d, finding = some d → d.sighting.uid = u

theorem setBackEntry_capacities (u : Uid) (finding : Option Displaced) (e : SightEntry)
    (s : State) (h : Capacities s) (hf : FindingOf u finding) (he : EntryOf u e) :
    Capacities (setBackEntry u finding e s) := by
  unfold setBackEntry
  split
  · exact modEntry_capacities _ _ _ h fun _ _ _ => ⟨hf _ rfl, nofun⟩
  · rename_i hd
    exact modEntry_capacities _ _ _ h fun _ _ _ => ⟨he.2 _ hd, nofun⟩
  · exact removeEntry_capacities _ _ h

theorem withdrawIntent_capacities (sd : Side) (finding : Option Displaced) (s : State)
    (h : Capacities s) (hf : FindingOf (tapUid s sd) finding) :
    Capacities (withdrawIntent sd finding s) := by
  unfold withdrawIntent
  extract_lets u cleared queue
  have hc : Capacities cleared := by
    show Capacities (match entryOf s u with
      | some e => if ownPinned s sd e then setBackEntry u finding e s else s
      | none => s)
    split
    · rename_i e he
      split
      · exact setBackEntry_capacities _ _ _ _ h hf (entryOf_some h he).2
      · exact h
    · exact h
  refine purgeSightings_capacities _ ?_
  show Capacities (match (s.taps.get sd).record.intent with
    | some x => modRing (withdrawMsg (.sighting x)) cleared
    | none => cleared)
  split
  · exact modRing_capacities _ _ hc (withdrawMsg_holds _ hc.ring)
  · exact hc

theorem tapUid_modTap_hold (sd : Side) (s : State) :
    tapUid (modTap sd (fun t => { t with hold := none }) s) sd = tapUid s sd := by
  cases sd <;> rfl

theorem refuseClone_capacities (sd : Side) (reason : FindingReason) (finding : Option Displaced)
    (s : State) (h : Capacities s) (hf : FindingOf (tapUid s sd) finding) :
    Capacities (refuseClone sd reason finding s) := by
  refine refuse_capacities _ _ _ (cloneParty_capacities _ _ _ (releaseReservations_capacities _ _ ?_))
  refine withdrawIntent_capacities _ _ _ (modTap_capacities _ _ _ h) ?_
  rw [tapUid_modTap_hold]
  exact hf

/-- A rule for a standing entry that keeps it an entry of its UID. -/
def KeepsUid (rule : SightEntry → Sighting → SightEntry × Option FindingReason) : Prop :=
  ∀ e x, EntryOf x.uid e → EntryOf x.uid (rule e x).1

theorem stateOn_keeps : KeepsUid stateOn := by
  intro e x h
  unfold stateOn
  split
  · exact ⟨rfl, nofun⟩
  · exact h

theorem otherOn_keeps : KeepsUid otherOn := by
  intro e x h
  unfold otherOn
  split
  · exact ⟨rfl, nofun⟩
  · exact stateOn_keeps e x h

theorem arrivalOn_keeps : KeepsUid arrivalOn := by
  intro e x h
  unfold arrivalOn
  split
  · unfold intentOn
    repeat' split
    all_goals first | exact h | exact ⟨rfl, nofun⟩
  · exact otherOn_keeps e x h

theorem ownOn_keeps : KeepsUid ownOn := by
  intro e x h
  unfold ownOn
  split
  · exact ⟨rfl, nofun⟩
  · exact otherOn_keeps e x h

theorem applySighting_capacities
    (rule : SightEntry → Sighting → SightEntry × Option FindingReason) (hr : KeepsUid rule)
    (x : Sighting) (s : State) (h : Capacities s) : Capacities (applySighting rule x s).1 := by
  unfold applySighting
  split
  · rename_i hn
    exact insertEntry_capacities _ _ h (entryOf_none hn) nofun
  · rename_i e he
    exact modEntry_capacities _ _ _ h fun _ _ _ => hr e x (entryOf_some h he).2

theorem takeFinding_capacities (sd : Side) (reason : FindingReason) (x : Sighting) (s : State)
    (h : Capacities s) (hu : tapUid s sd = x.uid) : Capacities (takeFinding sd reason x s) := by
  unfold takeFinding
  split
  · refine refuseClone_capacities _ _ _ _ h ?_
    intro d hd
    cases hd
    exact hu.symm
  · exact modRecord_capacities _ _ _ h

theorem inFlight_uid {s : State} {sd : Side} {u : Uid} (h : inFlight s sd u = true) :
    tapUid s sd = u := by
  simp only [inFlight, Bool.and_eq_true, decide_eq_true_eq] at h
  simp [tapUid, h.1]

theorem judgeSide_capacities (sd : Side) (x : Sighting) (action : Option FindingReason)
    (s : State) (h : Capacities s) : Capacities (judgeSide sd x action s) := by
  unfold judgeSide
  split
  · rename_i hi
    repeat' split
    all_goals first | exact h | exact takeFinding_capacities _ _ _ _ h (inFlight_uid hi)
  · exact h

theorem bystander_capacities (u : Uid) (action : Option FindingReason) (busy : Bool) (s : State)
    (h : Capacities s) : Capacities (bystander u action busy s) := by
  unfold bystander
  repeat' split
  all_goals repeat' first
      | with_reducible exact h
      | with_reducible apply offerLocal_capacities

theorem arriveSighting_capacities (x : Sighting) (s : State)
    (h : Capacities s) : Capacities (arriveSighting x s) := by
  unfold arriveSighting
  dsimp only
  repeat' split
  all_goals repeat' first
      | with_reducible exact h
      | with_reducible apply purgeSightings_capacities
      | exact applySighting_capacities _ arrivalOn_keeps _ _ (purgeSightings_capacities _ h)
      | with_reducible apply judgeSide_capacities
      | with_reducible apply bystander_capacities

theorem ownSighting_capacities (sd : Side) (x : Sighting) (s : State)
    (h : Capacities s) : Capacities (ownSighting sd x s) := by
  have ha := applySighting_capacities ownOn ownOn_keeps x _ (purgeSightings_capacities s h)
  exact bystander_capacities _ _ _ _ (judgeSide_capacities _ _ _ _
    (modRing_capacities _ _ ha (joinInsertion_holds _ ha.ring)))

theorem claimEntry_capacities (x : Sighting) (s : State)
    (h : Capacities s) : Capacities (claimEntry x s) := by
  unfold claimEntry
  split
  · rename_i hn
    exact insertEntry_capacities _ _ h (entryOf_none hn) nofun
  · refine modEntry_capacities _ _ _ h fun e _ he => ⟨rfl, ?_⟩
    intro d hd
    cases hd
    exact he.1

theorem claimFinding_of {s : State} {sd : Side} {t : Nat} {u : Uid} {reason : FindingReason}
    {d : Displaced} (hs : Capacities s)
    (h : claimFinding s sd t (entryOf s u) = some (reason, d)) : d.sighting.uid = u := by
  unfold claimFinding at h
  split at h
  · cases h
  · rename_i e he
    have hu := (entryOf_some hs he).2.1
    split at h
    · cases h
      exact hu
    · obtain ⟨r, _, hr⟩ := Option.map_eq_some_iff.mp h
      cases hr
      exact hu

theorem withdrawIntent_taps (sd : Side) (finding : Option Displaced) (s : State) :
    (withdrawIntent sd finding s).taps = s.taps := by
  unfold withdrawIntent setBackEntry
  dsimp only
  repeat' split
  all_goals rfl

theorem releaseContext_taps (sd : Side) (s : State) : (releaseContext sd s).taps = s.taps := by
  unfold releaseContext expireContext offerRecord
  repeat' split
  all_goals rfl

theorem cloneParty_taps (sd : Side) (reason : FindingReason) (s : State) :
    (cloneParty sd reason s).taps = s.taps := by
  unfold cloneParty offerLocal
  dsimp only
  split <;> rfl

theorem get_set_other {α : Type} (p : Sided α) (sd : Side) (a : α) :
    (p.set sd.other a).get sd = p.get sd := by
  cases sd <;> rfl

theorem releaseReservations_otherTap (sd : Side) (s : State) :
    (releaseReservations sd.other s).taps.get sd = s.taps.get sd := by
  unfold releaseReservations releaseGrantSlot releaseJournal releaseInsertion
  repeat' split
  all_goals simp [modRecord]

theorem refuse_otherTap (sd : Side) (code : RefusalCode) (s : State) :
    (refuse sd.other code s).taps.get sd = s.taps.get sd := by
  have hr : ∀ (k : JournalKind) (s : State),
      (recordRefusal sd.other k code s).taps.get sd = s.taps.get sd := by
    intro k s
    unfold recordRefusal offerRecord
    split <;> simp [modRecord, modCounters]
  simp only [refuse, askHalt, sendCommand, refuseSequence, modTap_taps, modChan, setChan_taps,
    get_set_other, releaseContext_taps, hr, startStop, modGate_taps, releaseReservations_otherTap]

/-- The judging of one side's transaction leaves the other Tap Controller alone. -/
theorem judgeSide_otherTap (sd : Side) (x : Sighting) (action : Option FindingReason) (s : State) :
    (judgeSide sd.other x action s).taps.get sd = s.taps.get sd := by
  have ht : ∀ reason, (takeFinding sd.other reason x s).taps.get sd = s.taps.get sd := by
    intro reason
    unfold takeFinding
    split
    · simp [refuseClone, refuse_otherTap, cloneParty_taps, releaseReservations_otherTap,
        withdrawIntent_taps]
    · simp [modRecord]
  unfold judgeSide
  repeat' split
  all_goals first | rfl | exact ht _

theorem enterClaiming_capacities (sd : Side) (s : State) (h : Capacities s)
    (hi : 1 ≤ s.ring.intentReserved) : Capacities (enterClaiming sd s) := by
  have hp := purgeSightings_capacities s h
  unfold enterClaiming
  extract_lets s' u t x before entered placed holding judged
  have he : Capacities entered := by
    show Capacities (if _ then _ else _)
    split
    · exact hp
    · exact claimEntry_capacities _ _ hp
  have hr : entered.ring.intentReserved = s.ring.intentReserved := by
    show (if _ then _ else _ : State).ring.intentReserved = _
    split
    · rfl
    · rw [claimEntry_ring]
      rfl
  have hj : Capacities judged := by
    refine judgeSide_capacities _ _ _ _ (modTap_capacities _ _ _ (modRecord_capacities _ _ _
      (modRing_capacities _ _ he ⟨?_, he.7, he.8, he.9⟩)))
    have := he.insertion
    simp only [placeIntent, List.length_append, List.length_singleton]
    omega
  split
  · rename_i reason d hd
    refine refuseClone_capacities _ _ _ _ hj ?_
    intro d' hd'
    cases hd'
    have hu : tapUid judged sd = u := by
      show ((judgeSide sd.other x (some .contest) holding).taps.get sd).record.uid.getD 0 = _
      rw [judgeSide_otherTap]
      show ((holding.taps.get sd).record.uid.getD 0) = _
      have hh : (holding.taps.get sd).record.uid = (entered.taps.get sd).record.uid := by
        cases sd <;> rfl
      have het : entered.taps = s.taps := by
        show (if _ then _ else _ : State).taps = _
        split
        · rfl
        · unfold claimEntry insertEntry
          repeat' split
          all_goals rfl
      rw [hh, het]
      rfl
    exact (claimFinding_of hp hd).trans hu.symm
  · exact hj

theorem contestEntry_capacities (u : Uid) (s : State)
    (h : Capacities s) : Capacities (contestEntry u s) := by
  unfold contestEntry
  exact modEntry_capacities _ _ _ h fun _ _ he => he

theorem arriveNotice_capacities (u : Uid) (s : State)
    (h : Capacities s) : Capacities (arriveNotice u s) := by
  unfold arriveNotice
  repeat' first
      | with_reducible exact h
      | with_reducible apply offerLocal_capacities
      | with_reducible apply purgeSightings_capacities
      | with_reducible apply contestEntry_capacities

theorem makeRoom_capacities (s : State) (h : Capacities s) : Capacities (makeRoom s) := by
  unfold makeRoom
  repeat' split
  all_goals repeat' first
      | with_reducible exact h
      | with_reducible apply expireContext_capacities

theorem enterContext_capacities (c : Context) (s : State) (h : Capacities s)
    (hn : ∀ x ∈ s.contexts, x.uid ≠ c.uid) : Capacities (enterContext c s) := by
  unfold enterContext
  split
  · exact h.withContexts (by simp; omega) (nodup_append_new h.oneContext hn)
  · exact h

theorem expireContext_contexts (c : Context) (s : State) :
    (expireContext c s).contexts = s.contexts.filter (fun x => decide (x.uid ≠ c.uid)) := by
  unfold expireContext offerRecord
  split <;> rfl

/-- Room made for a context brings no context into the table. -/
theorem makeRoom_subset (s : State) : (makeRoom s).contexts ⊆ s.contexts := by
  unfold makeRoom
  repeat' split
  all_goals first
    | exact List.Subset.refl _
    | exact expireContext_contexts _ _ ▸ fun _ hx => (List.mem_filter.mp hx).1

theorem createContext_capacities (sd : Side) (s : State)
    (h : Capacities s) : Capacities (createContext sd s) := by
  unfold createContext
  extract_lets c s'
  have hs : Capacities s' ∧ ∀ x ∈ s'.contexts, x.uid ≠ c.uid := by
    show Capacities (match contextOf s c.uid with
      | some old => expireContext old s
      | none => s) ∧ ∀ x ∈ (match contextOf s c.uid with
      | some old => expireContext old s
      | none => s : State).contexts, x.uid ≠ c.uid
    split
    · rename_i old ho
      have hu : old.uid = c.uid := by simpa using List.find?_some ho
      refine ⟨expireContext_capacities _ _ h, fun x hx => ?_⟩
      rw [expireContext_contexts] at hx
      simpa [hu] using (List.mem_filter.mp hx).2
    · rename_i hn
      refine ⟨h, fun x hx hu => ?_⟩
      have := List.find?_eq_none.mp hn x hx
      simp [hu] at this
  exact enterContext_capacities _ _ (makeRoom_capacities _ hs.1)
    (fun x hx => hs.2 x (makeRoom_subset _ hx))

theorem updateContext_capacities (c : Context) (sd : Side) (s : State)
    (h : Capacities s) : Capacities (updateContext c sd s) := by
  unfold updateContext
  dsimp only
  repeat' split
  all_goals repeat' first
      | with_reducible exact h
      | with_reducible apply expireContext_capacities
      | exact modContext_capacities _ _ _ (by with_reducible assumption) (fun _ hc => hc)
      | exact modContext_capacities _ _ _ (by with_reducible assumption) (fun _ _ => rfl)

theorem tearHandOff_capacities (sd : Side) (s : State)
    (h : Capacities s) : Capacities (tearHandOff sd s) := by
  unfold tearHandOff
  dsimp only
  repeat' split
  all_goals repeat' first
      | with_reducible exact h
      | with_reducible apply releaseJournal_capacities
      | with_reducible apply releaseGrantSlot_capacities
      | with_reducible apply takeUpMark_capacities
      | with_reducible apply ownSighting_capacities
      | with_reducible apply createContext_capacities
      | with_reducible apply updateContext_capacities

theorem tear_capacities (sd : Side) (s : State) (h : Capacities s) : Capacities (tear sd s) := by
  unfold tear
  repeat' first
      | with_reducible exact h
      | with_reducible apply startStop_capacities
      | with_reducible apply askHalt_capacities
      | with_reducible apply tearHandOff_capacities

theorem reachDeadline_capacities (s : State) (c : Context)
    (h : Capacities s) : Capacities (reachDeadline s c) := by
  unfold reachDeadline
  repeat' split
  all_goals repeat' first
      | with_reducible exact h
      | with_reducible apply expireContext_capacities
      | exact modContext_capacities _ _ _ (by with_reducible assumption) (fun _ hc => hc)
      | exact modContext_capacities _ _ _ (by with_reducible assumption) (fun _ _ => rfl)

theorem takeDeadlines_capacities (s : State) (h : Capacities s) : Capacities (takeDeadlines s) := by
  exact foldl_capacities _ (fun s c h => reachDeadline_capacities s c h) _ _ h

theorem startPassTimer_capacities (s : State)
    (h : Capacities s) : Capacities (startPassTimer s) := by
  unfold startPassTimer
  repeat' split
  all_goals repeat' first
      | with_reducible exact h
      | exact ⟨h.1, h.2, h.3, h.4, h.5, h.6, h.7, h.8, h.9, h.10, h.11, h.12, h.13⟩

theorem stopPassTimer_capacities (s : State) (h : Capacities s) : Capacities (stopPassTimer s) := by
  exact ⟨h.1, h.2, h.3, h.4, h.5, h.6, h.7, h.8, h.9, h.10, h.11, h.12, h.13⟩

theorem giveUpGrant_capacities (emergency : Bool) (s : State) (g : Grant)
    (h : Capacities s) : Capacities (giveUpGrant emergency s g) := by
  unfold giveUpGrant
  repeat' first
      | with_reducible exact h
      | with_reducible apply modCounters_capacities
      | with_reducible apply offerRecord_capacities
      | with_reducible apply ownSighting_capacities

theorem withdrawAll_capacities (emergency : Bool) (s : State)
    (h : Capacities s) : Capacities (withdrawAll emergency s) := by
  refine foldl_capacities _ (fun s g h => giveUpGrant_capacities _ s g h) _ _ ?_
  refine modGate_capacities _ _ h ?_
  have := h.grants
  simp
  omega

theorem shutLane_capacities (emergency : Bool) (s : State)
    (h : Capacities s) : Capacities (shutLane emergency s) := by
  exact modGate_capacities _ _ (withdrawAll_capacities _ _ h) (withdrawAll_capacities _ _ h).grants

theorem deriveGate_capacities (s : State) (h : Capacities s) : Capacities (deriveGate s) := by
  unfold deriveGate
  repeat' split
  all_goals repeat' first
      | with_reducible exact h
      | with_reducible apply shutLane_capacities

theorem handOverGrant_capacities (g : Grant) (s : State)
    (h : Capacities s) : Capacities (handOverGrant g s) := by
  have hq : Capacities (modGate (fun gt =>
      let freed : Gate := { gt with reserved := gt.reserved - 1 }
      if freed.queue.length + freed.reserved < 2 then { freed with queue := freed.queue ++ [g] }
      else freed) s) := by
    refine modGate_capacities _ _ h ?_
    have := h.grants
    dsimp only
    split
    · simp
      omega
    · simp
      omega
  unfold handOverGrant
  dsimp only
  split
  · exact deriveGate_capacities _ (startPassTimer_capacities _ hq)
  · exact deriveGate_capacities _ hq

theorem raiseAlarm_capacities (k : AlarmKind) (s : State)
    (h : Capacities s) : Capacities (raiseAlarm k s) := by
  exact ⟨h.1, h.2, h.3, h.4, h.5, h.6, h.7, h.8, h.9, h.10, h.11, h.12, h.13⟩

theorem clearAlarm_capacities (s : State) (h : Capacities s) : Capacities (clearAlarm s) := by
  have hc : Capacities
      (modGate (fun g => { g with alarm := none, queue := clearMarks g.queue }) s) :=
    modGate_capacities _ _ h (by simpa [clearMarks] using h.grants)
  unfold clearAlarm
  dsimp only
  split
  · exact modGate_capacities _ _ hc hc.grants
  · exact hc
  · exact startPassTimer_capacities _ hc

theorem nextHead_capacities (s : State) (h : Capacities s) : Capacities (nextHead s) := by
  unfold nextHead
  repeat' split
  all_goals repeat' first
      | with_reducible exact h
      | with_reducible apply startPassTimer_capacities
      | with_reducible apply stopPassTimer_capacities

theorem setOccupancy_capacities (n : Nat) (s : State)
    (h : Capacities s) : Capacities (setOccupancy n s) := by
  exact ⟨h.1, h.2, h.3, h.4, h.5, h.6, h.7, h.8, h.9, h.10, h.11, h.12, h.13⟩

theorem enterHead_capacities (s : State) (h : Capacities s) : Capacities (enterHead s) := by
  refine modGate_capacities _ _ h ?_
  have := h.grants
  dsimp only
  split <;> simp_all

theorem enterSecond_capacities (s : State) (h : Capacities s) : Capacities (enterSecond s) := by
  refine modGate_capacities _ _ h ?_
  have := h.grants
  dsimp only
  split <;> simp_all

theorem enterEffect_capacities (sd : Side) (st : GateState) (occupancy : Nat) (s : State)
    (h : Capacities s) : Capacities (enterEffect sd st occupancy s) := by
  unfold enterEffect
  repeat' split
  all_goals repeat' first
      | with_reducible exact h
      | with_reducible apply raiseAlarm_capacities
      | with_reducible apply enterHead_capacities
      | with_reducible apply enterSecond_capacities

theorem laneEnter_capacities (sd : Side) (s : State)
    (h : Capacities s) : Capacities (laneEnter sd s) := by
  exact enterEffect_capacities _ _ _ _ (setOccupancy_capacities _ _ h)

theorem consumeHead_capacities (s : State) (h : Capacities s) : Capacities (consumeHead s) := by
  refine nextHead_capacities _ (modCounters_capacities _ _ (modGate_capacities _ _ h ?_))
  have := h.grants
  simp
  omega

theorem backOut_capacities (s : State) (h : Capacities s) : Capacities (backOut s) := by
  have := h.grants
  unfold backOut
  split
  · split
    · exact modGate_capacities _ _ h (by simp_all)
    · exact startPassTimer_capacities _ (modGate_capacities _ _ h (by simp_all))
  · exact startPassTimer_capacities _ (modGate_capacities _ _ h (by simp_all))
  · exact h

theorem lanePassed_capacities (sd : Side) (s : State)
    (h : Capacities s) : Capacities (lanePassed sd s) := by
  have hm := setOccupancy_capacities (s.gate.occupancy - 1) s h
  unfold lanePassed
  dsimp only
  split
  · split
    · exact backOut_capacities _ hm
    · exact consumeHead_capacities _ hm
  · exact hm

theorem laneClear_capacities (s : State) (h : Capacities s) : Capacities (laneClear s) := by
  have hc := setOccupancy_capacities 0 s h
  have hm : Capacities (modGate (fun g => { g with queue := clearMarks g.queue })
      (setOccupancy 0 s)) :=
    modGate_capacities _ _ hc (by simpa [clearMarks] using hc.grants)
  unfold laneClear
  dsimp only
  split
  · exact startPassTimer_capacities _ hm
  · exact hc
  · exact clearAlarm_capacities _ hc
  · exact hc

theorem laneForced_capacities (s : State) (h : Capacities s) : Capacities (laneForced s) := by
  unfold laneForced
  repeat' split
  all_goals repeat' first
      | with_reducible exact h
      | with_reducible apply raiseAlarm_capacities

theorem laneOccupied_capacities (s : State) (h : Capacities s) : Capacities (laneOccupied s) := by
  unfold laneOccupied
  repeat' split
  all_goals repeat' first
      | with_reducible exact h
      | with_reducible apply raiseAlarm_capacities

theorem passExpiry_capacities (s : State) (h : Capacities s) : Capacities (passExpiry s) := by
  have := h.grants
  unfold passExpiry
  split
  · rename_i hq _
    refine giveUpGrant_capacities _ _ _ (nextHead_capacities _ (modGate_capacities _ _ h ?_))
    simp_all
    omega
  · exact h

theorem releaseAlarm_capacities (s : State) (h : Capacities s) : Capacities (releaseAlarm s) := by
  unfold releaseAlarm
  dsimp only
  repeat' split
  all_goals repeat' first
      | with_reducible exact h
      | with_reducible apply clearAlarm_capacities
      | with_reducible apply setOccupancy_capacities

theorem modBank_capacities (id : BankId) (f : Bank → Bank) (s : State)
    (h : Capacities s) : Capacities (modBank id f s) := by
  exact ⟨h.1, h.2, h.3, h.4, h.5, h.6, h.7, h.8, h.9, h.10, h.11, h.12, h.13⟩

theorem releaseBank_capacities (sd : Side) (s : State)
    (h : Capacities s) : Capacities (releaseBank sd s) := by
  unfold releaseBank
  repeat' split
  all_goals repeat' first
      | with_reducible exact h
      | with_reducible apply modBank_capacities

theorem activateBank_capacities (id : BankId) (s : State)
    (h : Capacities s) : Capacities (activateBank id s) := by
  unfold activateBank
  dsimp only
  all_goals repeat' first
      | with_reducible exact h
      | with_reducible apply purgeSightings_capacities
      | with_reducible apply modBank_capacities
      | exact ⟨h.1, h.2, h.3, h.4, h.5, h.6, h.7, h.8, h.9, h.10, h.11, h.12, h.13⟩

theorem activateIfDue_capacities (s : State) (h : Capacities s) : Capacities (activateIfDue s) := by
  unfold activateIfDue
  repeat' split
  all_goals repeat' first
      | with_reducible exact h
      | with_reducible apply tear_capacities
      | with_reducible apply activateBank_capacities

theorem lineTimeMoved_capacities (s : State) (h : Capacities s) : Capacities (lineTimeMoved s) := by
  unfold lineTimeMoved
  repeat' first
      | with_reducible exact h
      | with_reducible apply purgeSightings_capacities
      | with_reducible apply takeDeadlines_capacities
      | with_reducible apply activateIfDue_capacities

theorem askStore_capacities (sd : Side) (ask : TapAsk) (s : State)
    (h : Capacities s) : Capacities (askStore sd ask s) := by
  exact ⟨h.1, h.2, h.3, h.4, h.5, h.6, h.7, h.8, h.9, h.10, h.11, h.12, h.13⟩

theorem askLoader_capacities (ask : LoaderAsk) (s : State)
    (h : Capacities s) : Capacities (askLoader ask s) := by
  exact ⟨h.1, h.2, h.3, h.4, h.5, h.6, h.7, h.8, h.9, h.10, h.11, h.12, h.13⟩

theorem mergeLook_capacities (s : State) (h : Capacities s) : Capacities (mergeLook s) := by
  unfold mergeLook
  repeat' split
  all_goals repeat' first
      | with_reducible exact h
      | with_reducible apply modArb_capacities
      | exact ⟨h.1, h.2, h.3, h.4, h.5, h.6, h.7, h.8, h.9, h.10, h.11, h.12, h.13⟩

theorem mergeResume_capacities (s : State) (h : Capacities s) : Capacities (mergeResume s) := by
  unfold mergeResume
  repeat' split
  all_goals repeat' first
      | with_reducible exact h
      | with_reducible apply modArb_capacities
      | exact ⟨h.1, h.2, h.3, h.4, h.5, h.6, h.7, h.8, h.9, h.10, h.11, h.12, h.13⟩

theorem arbitrate_capacities (s : State) (h : Capacities s) : Capacities (arbitrate s) := by
  unfold arbitrate
  have ht := modHot_capacities takeAdditions s h (takeAdditions_holds h.hot)
  split
  all_goals repeat' first
      | with_reducible exact h
      | with_reducible exact ht
      | with_reducible apply modArb_capacities
      | with_reducible apply mergeLook_capacities
      | with_reducible apply mergeResume_capacities

theorem grantReady_capacities (s : State) (h : Capacities s) : Capacities (grantReady s) := by
  unfold grantReady
  split
  · exact h
  · exact arbitrate_capacities _ h

theorem endGrant_capacities (s : State) (h : Capacities s) : Capacities (endGrant s) := by
  exact ⟨h.1, h.2, h.3, h.4, h.5, h.6, h.7, h.8, h.9, h.10, h.11, h.12, h.13⟩

theorem finishEnd_capacities (sd : Side) (missed : Bool) (s : State)
    (h : Capacities s) : Capacities (finishEnd sd missed s) := by
  unfold finishEnd
  repeat' split
  all_goals repeat' first
      | with_reducible exact h
      | with_reducible apply closeRecord_capacities
      | with_reducible apply askHalt_capacities

theorem tapLost_capacities (sd : Side) (s : State)
    (h : Capacities s) : Capacities (tapLost sd s) := by
  unfold tapLost
  split
  · exact refuse_capacities _ _ _ h
  · exact refuse_capacities _ _ _ h
  · exact refuse_capacities _ _ _ h
  · exact refuse_capacities _ _ _ h
  · exact tear_capacities _ _ h
  · exact tear_capacities _ _ h
  · exact finishEnd_capacities _ _ _ h
  · exact h

theorem ask_capacities (sd : Side) (cmd : AirCommand) (s : State)
    (h : Capacities s) : Capacities (ask sd cmd s) := by
  unfold ask
  repeat' split
  all_goals repeat' first
      | with_reducible exact h
      | with_reducible apply sendCommand_capacities
      | with_reducible apply tapLost_capacities

theorem askEngine_capacities (sd : Side) (job : ChanJob) (s : State)
    (h : Capacities s) : Capacities (askEngine sd job s) := by
  exact ⟨h.1, h.2, h.3, h.4, h.5, h.6, h.7, h.8, h.9, h.10, h.11, h.12, h.13⟩

theorem askWrite_capacities (sd : Side) (block : Nat) (s : State)
    (h : Capacities s) : Capacities (askWrite sd block s) := by
  unfold askWrite
  repeat' first | with_reducible exact h | with_reducible apply ask_capacities

theorem enterConfirming_capacities (sd : Side) (s : State)
    (h : Capacities s) : Capacities (enterConfirming sd s) := by
  unfold enterConfirming
  repeat' first
      | with_reducible exact h
      | with_reducible apply setTapState_capacities
      | with_reducible apply ask_capacities

theorem writeSecond_capacities (sd : Side) (s : State)
    (h : Capacities s) : Capacities (writeSecond sd s) := by
  unfold writeSecond
  repeat' split
  all_goals repeat' first
      | with_reducible exact h
      | with_reducible apply askWrite_capacities
      | with_reducible apply enterConfirming_capacities

theorem writeFirst_capacities (sd : Side) (s : State)
    (h : Capacities s) : Capacities (writeFirst sd s) := by
  unfold writeFirst
  repeat' split
  all_goals repeat' first
      | with_reducible exact h
      | with_reducible apply askWrite_capacities
      | with_reducible apply writeSecond_capacities

theorem dropDisplaced_capacities (sd : Side) (s : State)
    (h : Capacities s) : Capacities (dropDisplaced sd s) := by
  unfold dropDisplaced
  refine modEntry_capacities _ _ _ h fun e _ he => ?_
  split
  · exact ⟨he.1, nofun⟩
  · exact he

theorem writePoint_capacities (sd : Side) (s : State)
    (h : Capacities s) : Capacities (writePoint sd s) := by
  unfold writePoint
  repeat' first
      | with_reducible exact h
      | with_reducible apply modTap_capacities
      | with_reducible apply writeFirst_capacities
      | with_reducible apply dropDisplaced_capacities

theorem dropHeld_capacities (sd : Side) (s : State)
    (h : Capacities s) : Capacities (dropHeld sd s) := by
  unfold dropHeld
  repeat' split
  all_goals repeat' first
      | with_reducible exact h
      | with_reducible apply removeContext_capacities

theorem commitHandOffs_capacities (sd : Side) (d : Decision) (s : State)
    (h : Capacities s) : Capacities (commitHandOffs sd d s) := by
  unfold commitHandOffs
  repeat' first
      | with_reducible exact h
      | with_reducible apply modRecord_capacities
      | with_reducible apply modCounters_capacities
      | with_reducible apply convertRecord_capacities
      | with_reducible apply takeUpMark_capacities
      | with_reducible apply ownSighting_capacities
      | with_reducible apply handOverGrant_capacities
      | with_reducible apply dropHeld_capacities

theorem afterCommit_capacities (sd : Side) (d : Decision) (s : State)
    (h : Capacities s) : Capacities (afterCommit sd d s) := by
  unfold afterCommit
  repeat' split
  all_goals repeat' first
      | with_reducible exact h
      | with_reducible apply setTapState_capacities
      | with_reducible apply askHalt_capacities
      | with_reducible apply ask_capacities

theorem commit_capacities (sd : Side) (s : State)
    (h : Capacities s) : Capacities (commit sd s) := by
  unfold commit
  repeat' split
  all_goals repeat' first
      | with_reducible exact h
      | with_reducible apply commitHandOffs_capacities
      | with_reducible apply afterCommit_capacities

theorem confirmBlock_capacities (sd : Side) (first : Bool) (s : State)
    (h : Capacities s) : Capacities (confirmBlock sd first s) := by
  exact ⟨h.1, h.2, h.3, h.4, h.5, h.6, h.7, h.8, h.9, h.10, h.11, h.12, h.13⟩

theorem rewriteBlock_capacities (sd : Side) (first : Bool) (s : State)
    (h : Capacities s) : Capacities (rewriteBlock sd first s) := by
  unfold rewriteBlock
  repeat' first
      | with_reducible exact h
      | with_reducible apply modRecord_capacities
      | with_reducible apply askWrite_capacities

theorem afterReadBack_capacities (sd : Side) (s : State)
    (h : Capacities s) : Capacities (afterReadBack sd s) := by
  unfold afterReadBack
  dsimp only
  repeat' split
  all_goals repeat' first
      | with_reducible exact h
      | with_reducible apply commit_capacities
      | with_reducible apply rewriteBlock_capacities

theorem readBack_capacities (sd : Side) (block : Nat) (bytes : List Byte) (s : State)
    (h : Capacities s) : Capacities (readBack sd block bytes s) := by
  unfold readBack
  dsimp only
  repeat' split
  all_goals repeat' first
      | with_reducible exact h
      | with_reducible apply tear_capacities
      | with_reducible apply ask_capacities
      | with_reducible apply confirmBlock_capacities
      | with_reducible apply afterReadBack_capacities

theorem tapWritten_capacities (sd : Side) (block : Nat) (s : State)
    (h : Capacities s) : Capacities (tapWritten sd block s) := by
  unfold tapWritten
  repeat' split
  all_goals repeat' first
      | with_reducible exact h
      | with_reducible apply finishEnd_capacities
      | with_reducible apply ask_capacities
      | with_reducible apply enterConfirming_capacities
      | with_reducible apply writeSecond_capacities

theorem reservedAll_capacities (sd : Side) (s : State) (h : Capacities s)
    (hi : needsInsertion (s.taps.get sd).record = true → 1 ≤ s.ring.intentReserved) :
    Capacities (reservedAll sd s) := by
  unfold reservedAll
  split
  · rename_i hn
    exact enterClaiming_capacities _ _ h (hi hn)
  · exact commit_capacities _ _ h

theorem takeInsertion_capacities (sd : Side) (s : State)
    (h : Capacities s) : Capacities (takeInsertion sd s) := by
  unfold takeInsertion
  split
  · split
    · exact refuse_capacities _ _ _ h
    · rename_i ring hr
      obtain ⟨hh, hp⟩ := reserveIntent_holds hr h.ring
      exact reservedAll_capacities _ _ (modRecord_capacities _ _ _
        (modRing_capacities (fun _ => ring) _ h hh)) (fun _ => hp)
  · rename_i hn
    exact reservedAll_capacities _ _ h (fun hy => absurd hy hn)

theorem takeJournal_capacities (sd : Side) (s : State)
    (h : Capacities s) : Capacities (takeJournal sd s) := by
  unfold takeJournal
  split
  · refine takeInsertion_capacities _ _ (modRecord_capacities _ _ _
      (modJournal_capacities _ _ h ?_))
    have := h.journal
    simp only [journalAvailable] at *
    omega
  · exact refuse_capacities _ _ _ h

theorem check11_capacities (sd : Side) (s : State)
    (h : Capacities s) : Capacities (check11 sd s) := by
  unfold check11
  split
  · refine takeJournal_capacities _ _ (modRecord_capacities _ _ _ (modGate_capacities _ _ h ?_))
    dsimp only
    omega
  · exact refuse_capacities _ _ _ h

theorem check1_capacities (sd : Side) (s : State)
    (h : Capacities s) : Capacities (check1 sd s) := by
  unfold check1
  repeat' split
  all_goals repeat' first
      | with_reducible exact h
      | with_reducible apply refuse_capacities
      | with_reducible apply askEngine_capacities

theorem check3_capacities (sd : Side) (s : State)
    (h : Capacities s) : Capacities (check3 sd s) := by
  unfold check3
  dsimp only
  repeat' split
  all_goals repeat' first
      | with_reducible exact h
      | with_reducible apply refuse_capacities
      | with_reducible apply askStore_capacities

theorem check2_capacities (sd : Side) (s : State)
    (h : Capacities s) : Capacities (check2 sd s) := by
  unfold check2
  repeat' split
  all_goals repeat' first
      | with_reducible exact h
      | with_reducible apply refuse_capacities
      | with_reducible apply check3_capacities

theorem blockAction_capacities (sd : Side) (s : State)
    (h : Capacities s) : Capacities (blockAction sd s) := by
  unfold blockAction
  repeat' first
      | with_reducible exact h
      | with_reducible apply setTapState_capacities
      | with_reducible apply refuseSequence_capacities
      | with_reducible apply askEngine_capacities

theorem check4_capacities (sd : Side) (s : State)
    (h : Capacities s) : Capacities (check4 sd s) := by
  unfold check4
  dsimp only
  repeat' split
  all_goals repeat' first
      | with_reducible exact h
      | with_reducible apply modRecord_capacities
      | with_reducible apply refuse_capacities
      | with_reducible apply askStore_capacities
      | with_reducible apply blockAction_capacities

theorem recoverTap_capacities (sd : Side) (c : Context) (cls : RecoveryClass) (s : State)
    (h : Capacities s) : Capacities (recoverTap sd c cls s) := by
  unfold recoverTap
  repeat' first
      | with_reducible exact h
      | with_reducible apply modRecord_capacities
      | exact modContext_capacities _ _ _ (by with_reducible assumption) (fun _ hc => hc)
      | exact modContext_capacities _ _ _ (by with_reducible assumption) (fun _ _ => rfl)
      | with_reducible apply check11_capacities

theorem check8_capacities (sd : Side) (s : State)
    (h : Capacities s) : Capacities (check8 sd s) := by
  unfold check8
  repeat' split
  all_goals repeat' first
      | with_reducible exact h
      | with_reducible apply refuse_capacities
      | with_reducible apply askStore_capacities

theorem check7_capacities (sd : Side) (s : State)
    (h : Capacities s) : Capacities (check7 sd s) := by
  unfold check7
  repeat' split
  all_goals repeat' first
      | with_reducible exact h
      | with_reducible apply modRecord_capacities
      | with_reducible apply expireContext_capacities
      | with_reducible apply recoverTap_capacities
      | with_reducible apply check8_capacities

theorem check6_capacities (sd : Side) (s : State)
    (h : Capacities s) : Capacities (check6 sd s) := by
  unfold check6
  dsimp only
  repeat' split
  all_goals repeat' first
      | with_reducible exact h
      | with_reducible apply modRecord_capacities
      | with_reducible apply refuse_capacities
      | with_reducible apply check7_capacities

theorem check5_capacities (sd : Side) (s : State)
    (h : Capacities s) : Capacities (check5 sd s) := by
  unfold check5
  repeat' split
  all_goals repeat' first
      | with_reducible exact h
      | with_reducible apply refuse_capacities
      | with_reducible apply check6_capacities

theorem check9_capacities (sd : Side) (s : State)
    (h : Capacities s) : Capacities (check9 sd s) := by
  unfold check9
  dsimp only
  repeat' split
  all_goals repeat' first
      | with_reducible exact h
      | with_reducible apply modRecord_capacities
      | with_reducible apply askStore_capacities
      | with_reducible apply check11_capacities

theorem check10_capacities (sd : Side) (s : State)
    (h : Capacities s) : Capacities (check10 sd s) := by
  unfold check10
  dsimp only
  repeat' split
  all_goals repeat' first
      | with_reducible exact h
      | with_reducible apply modRecord_capacities
      | with_reducible apply refuse_capacities
      | with_reducible apply askEngine_capacities

theorem bankCheck_capacities (sd : Side) (a : TapAsk) (s : State)
    (h : Capacities s) : Capacities (bankCheck sd a s) := by
  unfold bankCheck
  repeat' split
  all_goals repeat' first
      | with_reducible exact h
      | with_reducible apply check1_capacities
      | with_reducible apply check5_capacities
      | with_reducible apply check9_capacities
      | with_reducible apply check10_capacities
      | with_reducible apply check11_capacities

theorem enterDeciding_capacities (sd : Side) (s : State)
    (h : Capacities s) : Capacities (enterDeciding sd s) := by
  unfold enterDeciding
  dsimp only
  repeat' split
  all_goals repeat' first
      | with_reducible exact h
      | with_reducible apply modRecord_capacities
      | with_reducible apply setTapState_capacities
      | with_reducible apply modBank_capacities
      | with_reducible apply askStore_capacities

theorem enterAuthenticating_capacities (sd : Side) (s : State)
    (h : Capacities s) : Capacities (enterAuthenticating sd s) := by
  unfold enterAuthenticating
  dsimp only
  repeat' split
  all_goals repeat' first
      | with_reducible exact h
      | with_reducible apply setTapState_capacities
      | with_reducible apply refuse_capacities
      | with_reducible apply askEngine_capacities

theorem startTap_capacities (sd : Side) (u : Uid) (s : State)
    (h : Capacities s) : Capacities (startTap sd u s) := by
  unfold startTap
  repeat' first
      | with_reducible exact h
      | with_reducible apply setTap_capacities
      | with_reducible apply ask_capacities

theorem readingBlock_capacities (sd : Side) (block : Nat) (bytes : List Byte) (s : State)
    (h : Capacities s) : Capacities (readingBlock sd block bytes s) := by
  unfold readingBlock
  dsimp only
  repeat' split
  all_goals repeat' first
      | with_reducible exact h
      | with_reducible apply modRecord_capacities
      | with_reducible apply ask_capacities
      | with_reducible apply askEngine_capacities

theorem tapRead_capacities (sd : Side) (block : Nat) (bytes : List Byte) (s : State)
    (h : Capacities s) : Capacities (tapRead sd block bytes s) := by
  unfold tapRead
  repeat' split
  all_goals repeat' first
      | with_reducible exact h
      | with_reducible apply modRecord_capacities
      | with_reducible apply readBack_capacities
      | with_reducible apply enterAuthenticating_capacities
      | with_reducible apply readingBlock_capacities

theorem tapChallenged_capacities (sd : Side) (challenge : List Byte) (s : State)
    (h : Capacities s) : Capacities (tapChallenged sd challenge s) := by
  exact ⟨h.1, h.2, h.3, h.4, h.5, h.6, h.7, h.8, h.9, h.10, h.11, h.12, h.13⟩

theorem tapResponded_capacities (sd : Side) (response : List Byte) (s : State)
    (h : Capacities s) : Capacities (tapResponded sd response s) := by
  exact ⟨h.1, h.2, h.3, h.4, h.5, h.6, h.7, h.8, h.9, h.10, h.11, h.12, h.13⟩

theorem withData_capacities (answer : AirAnswer) (f : List Byte → State → State) (s : State)
    (h : Capacities s) (hf : ∀ bytes, Capacities (f bytes s)) : Capacities (withData answer f s) := by
  unfold withData
  split
  · exact hf _
  all_goals exact h

theorem tapAnswer_capacities (sd : Side) (cmd : AirCommand) (answer : AirAnswer) (s : State)
    (h : Capacities s) : Capacities (tapAnswer sd cmd answer s) := by
  unfold tapAnswer
  split
  · exact ask_capacities _ _ _ (setTapState_capacities _ _ _ h)
  · exact withData_capacities _ _ _ h (fun bytes => tapRead_capacities _ _ _ _ h)
  · exact withData_capacities _ _ _ h (fun bytes => tapChallenged_capacities _ _ _ h)
  · exact withData_capacities _ _ _ h (fun bytes => tapResponded_capacities _ _ _ h)
  all_goals exact h

theorem sendResponse_capacities (sd : Side) (s : State)
    (h : Capacities s) : Capacities (sendResponse sd s) := by
  unfold sendResponse
  dsimp only
  all_goals repeat' first
      | with_reducible exact h
      | with_reducible apply modRecord_capacities
      | with_reducible apply ask_capacities
      | exact ⟨h.1, h.2, h.3, h.4, h.5, h.6, h.7, h.8, h.9, h.10, h.11, h.12, h.13⟩

theorem verifyResponse_capacities (sd : Side) (s : State)
    (h : Capacities s) : Capacities (verifyResponse sd s) := by
  unfold verifyResponse
  dsimp only
  repeat' split
  all_goals repeat' first
      | with_reducible exact h
      | with_reducible apply setTapState_capacities
      | with_reducible apply refuse_capacities
      | with_reducible apply ask_capacities

theorem classSlot_capacities (sd : Side) (slot : SlotId) (s : State)
    (h : Capacities s) : Capacities (classSlot sd slot s) := by
  unfold classSlot
  dsimp only
  repeat' split
  all_goals repeat' first
      | with_reducible exact h
      | with_reducible apply modRecord_capacities
      | with_reducible apply askEngine_capacities
      | with_reducible apply enterDeciding_capacities

theorem composeDone_capacities (sd : Side) (record : List Byte) (history : Option HistoryFields)
    (s : State) (h : Capacities s) : Capacities (composeDone sd record history s) := by
  unfold composeDone
  repeat' first
      | with_reducible exact h
      | with_reducible apply modRecord_capacities
      | with_reducible apply check11_capacities

theorem blockImageDone_capacities (sd : Side) (s : State)
    (h : Capacities s) : Capacities (blockImageDone sd s) := by
  unfold blockImageDone
  repeat' first
      | with_reducible exact h
      | with_reducible apply modRecord_capacities
      | with_reducible apply ask_capacities

theorem chanEngineDone_capacities (sd : Side) (job : ChanJob) (s : State)
    (h : Capacities s) : Capacities (chanEngineDone sd job s) := by
  unfold chanEngineDone
  dsimp only
  repeat' split
  all_goals repeat' first
      | with_reducible exact h
      | with_reducible apply modRecord_capacities
      | with_reducible apply setEngine_capacities
      | with_reducible apply ask_capacities
      | with_reducible apply askEngine_capacities
      | with_reducible apply check2_capacities
      | with_reducible apply sendResponse_capacities
      | with_reducible apply verifyResponse_capacities
      | with_reducible apply classSlot_capacities
      | with_reducible apply composeDone_capacities
      | with_reducible apply blockImageDone_capacities

theorem endTap_capacities (sd : Side) (s : State)
    (h : Capacities s) : Capacities (endTap sd s) := by
  unfold endTap
  repeat' first
      | with_reducible exact h
      | with_reducible apply setTap_capacities
      | with_reducible apply releaseBank_capacities

theorem clearCommand_capacities (sd : Side) (s : State)
    (h : Capacities s) : Capacities (clearCommand sd s) := by
  exact ⟨h.1, h.2, h.3, h.4, h.5, h.6, h.7, h.8, h.9, h.10, h.11, h.12, h.13⟩

theorem markLost_capacities (sd : Side) (s : State)
    (h : Capacities s) : Capacities (markLost sd s) := by
  exact ⟨h.1, h.2, h.3, h.4, h.5, h.6, h.7, h.8, h.9, h.10, h.11, h.12, h.13⟩

theorem cardFound_capacities (sd : Side) (u : Uid) (s : State)
    (h : Capacities s) : Capacities (cardFound sd u s) := by
  unfold cardFound
  repeat' first
      | with_reducible exact h
      | with_reducible apply modChan_capacities
      | with_reducible apply startTap_capacities
      | with_reducible apply clearCommand_capacities

theorem twoCards_capacities (sd : Side) (s : State)
    (h : Capacities s) : Capacities (twoCards sd s) := by
  exact ⟨h.1, h.2, h.3, h.4, h.5, h.6, h.7, h.8, h.9, h.10, h.11, h.12, h.13⟩

theorem wakeAnswered_capacities (sd : Side) (answer : AirAnswer) (s : State)
    (h : Capacities s) : Capacities (wakeAnswered sd answer s) := by
  unfold wakeAnswered
  split
  · exact cardFound_capacities _ _ _ h
  all_goals exact clearCommand_capacities _ _ h

theorem pollingEnd_capacities (sd : Side) (attempt : Nat) (out : WindowEnd) (s : State)
    (h : Capacities s) : Capacities (pollingEnd sd attempt out s) := by
  unfold pollingEnd
  split
  · exact wakeAnswered_capacities _ _ _ h
  · exact twoCards_capacities _ _ h
  · split
    · exact sendCommand_capacities _ _ _ _ h
    · exact clearCommand_capacities _ _ h
  all_goals exact clearCommand_capacities _ _ h

theorem awaitEnd_capacities (sd : Side) (out : WindowEnd) (s : State)
    (h : Capacities s) : Capacities (awaitEnd sd out s) := by
  unfold awaitEnd
  repeat' split
  all_goals repeat' first
      | with_reducible exact h
      | with_reducible apply modChan_capacities
      | with_reducible apply clearCommand_capacities

theorem loseCard_capacities (sd : Side) (s : State)
    (h : Capacities s) : Capacities (loseCard sd s) := by
  unfold loseCard
  repeat' first
      | with_reducible exact h
      | with_reducible apply tapLost_capacities
      | with_reducible apply clearCommand_capacities
      | with_reducible apply markLost_capacities

theorem engagedEnd_capacities (sd : Side) (o : Outstanding) (out : WindowEnd) (s : State)
    (h : Capacities s) : Capacities (engagedEnd sd o out s) := by
  unfold engagedEnd
  repeat' split
  all_goals repeat' first
      | with_reducible exact h
      | with_reducible apply sendCommand_capacities
      | with_reducible apply tapWritten_capacities
      | with_reducible apply tapAnswer_capacities
      | with_reducible apply clearCommand_capacities
      | with_reducible apply loseCard_capacities

theorem endWindow_capacities (sd : Side) (o : Outstanding) (out : WindowEnd) (s : State)
    (h : Capacities s) : Capacities (endWindow sd o out s) := by
  unfold endWindow
  repeat' split
  all_goals repeat' first
      | with_reducible exact h
      | with_reducible apply clearCommand_capacities
      | with_reducible apply pollingEnd_capacities
      | with_reducible apply awaitEnd_capacities
      | with_reducible apply engagedEnd_capacities

theorem answerArrives_capacities (sd : Side) (report : AirReport) (s : State)
    (h : Capacities s) : Capacities (answerArrives sd report s) := by
  unfold answerArrives
  repeat' split
  all_goals repeat' first
      | with_reducible exact h
      | with_reducible apply endWindow_capacities

theorem answerExpires_capacities (sd : Side) (s : State)
    (h : Capacities s) : Capacities (answerExpires sd s) := by
  unfold answerExpires
  repeat' split
  all_goals repeat' first
      | with_reducible exact h
      | with_reducible apply endWindow_capacities

theorem sendWake_capacities (sd : Side) (s : State)
    (h : Capacities s) : Capacities (sendWake sd s) := by
  exact ⟨h.1, h.2, h.3, h.4, h.5, h.6, h.7, h.8, h.9, h.10, h.11, h.12, h.13⟩

theorem pollExpires_capacities (sd : Side) (s : State)
    (h : Capacities s) : Capacities (pollExpires sd s) := by
  unfold pollExpires
  repeat' split
  all_goals repeat' first
      | with_reducible exact h
      | with_reducible apply sendWake_capacities

theorem fieldEmptied_capacities (sd : Side) (s : State)
    (h : Capacities s) : Capacities (fieldEmptied sd s) := by
  unfold fieldEmptied
  repeat' split
  all_goals repeat' first
      | with_reducible exact h
      | with_reducible apply modChan_capacities
      | with_reducible apply clearCommand_capacities

theorem switchOff_capacities (sd : Side) (s : State)
    (h : Capacities s) : Capacities (switchOff sd s) := by
  exact ⟨h.1, h.2, h.3, h.4, h.5, h.6, h.7, h.8, h.9, h.10, h.11, h.12, h.13⟩

theorem switchOn_capacities (sd : Side) (s : State)
    (h : Capacities s) : Capacities (switchOn sd s) := by
  exact ⟨h.1, h.2, h.3, h.4, h.5, h.6, h.7, h.8, h.9, h.10, h.11, h.12, h.13⟩

theorem enableChannel_capacities (sd : Side) (s : State)
    (h : Capacities s) : Capacities (enableChannel sd s) := by
  unfold enableChannel
  repeat' split
  all_goals repeat' first
      | with_reducible exact h
      | with_reducible apply switchOff_capacities
      | with_reducible apply switchOn_capacities

theorem leaveEngaged_capacities (sd : Side) (s : State)
    (h : Capacities s) : Capacities (leaveEngaged sd s) := by
  exact ⟨h.1, h.2, h.3, h.4, h.5, h.6, h.7, h.8, h.9, h.10, h.11, h.12, h.13⟩

theorem exchangeEnds_capacities (sd : Side) (s : State)
    (h : Capacities s) : Capacities (exchangeEnds sd s) := by
  unfold exchangeEnds
  repeat' split
  all_goals repeat' first
      | with_reducible exact h
      | with_reducible apply endTap_capacities
      | with_reducible apply leaveEngaged_capacities

theorem holdExpires_capacities (sd : Side) (s : State)
    (h : Capacities s) : Capacities (holdExpires sd s) := by
  unfold holdExpires
  repeat' split
  all_goals repeat' first
      | with_reducible exact h
      | with_reducible apply writePoint_capacities

theorem forwardFrame_capacities (f : RingFrame) (s : State)
    (h : Capacities s) : Capacities (forwardFrame f s) := by
  refine modRing_capacities _ _ h ?_
  split
  · exact ⟨h.6, by simp; omega, h.8, h.9⟩
  · exact h.ring

theorem forwardIfAll_capacities (f : RingFrame) (s : State)
    (h : Capacities s) : Capacities (forwardIfAll f s) := by
  unfold forwardIfAll
  repeat' split
  all_goals repeat' first
      | with_reducible exact h
      | with_reducible apply forwardFrame_capacities

theorem takeOwn_capacities (s : State) (h : Capacities s) : Capacities (takeOwn s) := by
  have := h.insertion
  have := h.answers
  unfold takeOwn
  split
  · rename_i hq
    exact modRing_capacities _ _ h ⟨by simp_all; omega, h.7, h.8, h.9⟩
  · split
    · rename_i hq
      exact modRing_capacities _ _ h ⟨h.6, h.7, h.8, by simp_all; omega⟩
    · split
      · exact modRing_capacities _ _ h h.ring
      · exact h

theorem ringOutTake_capacities (s : State) (h : Capacities s) : Capacities (ringOutTake s) := by
  have := h.forward
  unfold ringOutTake
  split
  · exact h
  · split
    · rename_i hq
      exact modRing_capacities _ _ h ⟨h.6, by simp_all; omega, h.8, h.9⟩
    · split
      · exact takeOwn_capacities _ h
      · exact h

theorem frameLeaves_capacities (x : Sending) (s : State)
    (h : Capacities s) : Capacities (frameLeaves x s) := by
  have hi : Capacities (modRing (fun r => { r with sending := none }) s) :=
    modRing_capacities _ _ h h.ring
  have he := modRing_capacities (enterSent (sentEntry s x.frame)) _ hi (enterSent_holds _ hi.ring)
  unfold frameLeaves
  dsimp only
  split
  · exact hi
  · refine modJournal_capacities _ _ he ?_
    have := he.journal
    simp only [List.length_drop]
    omega
  · exact he

theorem stripFrame_capacities (f : RingFrame) (s : State)
    (h : Capacities s) : Capacities (stripFrame f s) := by
  unfold stripFrame
  split
  · refine modRing_capacities _ _ h ⟨h.6, h.7, ?_, h.9⟩
    exact Nat.le_trans List.length_erase_le h.8
  · exact deriveGate_capacities _ (modRing_capacities _ _ h h.ring)

theorem ageOldest_capacities (s : State) (h : Capacities s) : Capacities (ageOldest s) := by
  refine modRing_capacities _ _ h ⟨h.6, h.7, ?_, h.9⟩
  have := h.sent
  simp only [List.length_drop]
  omega

theorem setLineTime_capacities (t : Nat) (s : State)
    (h : Capacities s) : Capacities (setLineTime t s) := by
  unfold setLineTime
  repeat' first
      | with_reducible exact h
      | with_reducible apply modClock_capacities
      | with_reducible apply lineTimeMoved_capacities

theorem clockBeacon_capacities (t : Nat) (s : State)
    (h : Capacities s) : Capacities (clockBeacon t s) := by
  unfold clockBeacon
  repeat' split
  all_goals repeat' first
      | with_reducible exact h
      | with_reducible apply modClock_capacities
      | with_reducible apply setLineTime_capacities

theorem takeBeacon_capacities (t : Nat) (s : State)
    (h : Capacities s) : Capacities (takeBeacon t s) := by
  unfold takeBeacon
  all_goals repeat' first
      | with_reducible exact h
      | with_reducible apply clockBeacon_capacities
      | exact ⟨h.1, h.2, h.3, h.4, h.5, h.6, h.7, h.8, h.9, h.10, h.11, h.12, h.13⟩

theorem advanceLineTime_capacities (s : State)
    (h : Capacities s) : Capacities (advanceLineTime s) := by
  unfold advanceLineTime
  repeat' split
  all_goals repeat' first
      | with_reducible exact h
      | with_reducible apply modClock_capacities
      | with_reducible apply lineTimeMoved_capacities

theorem watchExpires_capacities (s : State) (h : Capacities s) : Capacities (watchExpires s) := by
  unfold watchExpires
  repeat' split
  all_goals repeat' first
      | with_reducible exact h
      | exact ⟨h.1, h.2, h.3, h.4, h.5, h.6, h.7, h.8, h.9, h.10, h.11, h.12, h.13⟩

theorem driveLeaves_capacities (s : State) (h : Capacities s) : Capacities (driveLeaves s) :=
  ⟨h.1, h.2, h.3, h.4, h.5, h.6, h.7, h.8, h.9, h.10, h.11, h.12, h.13⟩

theorem driveIndicators_capacities (s : State)
    (h : Capacities s) : Capacities (driveIndicators s) := by
  exact ⟨h.1, h.2, h.3, h.4, h.5, h.6, h.7, h.8, h.9, h.10, h.11, h.12, h.13⟩

theorem settle_capacities (s : State) (h : Capacities s) : Capacities (settle s) := by
  unfold settle
  repeat' first
      | with_reducible exact h
      | with_reducible apply arbitrate_capacities
      | with_reducible apply enableChannel_capacities
      | with_reducible apply ringOutTake_capacities
      | with_reducible apply driveLeaves_capacities
      | with_reducible apply driveIndicators_capacities

theorem live_capacities (f : State → State) (s : State) (h : Capacities s)
    (hf : Capacities s → Capacities (f s)) : Capacities (live f s) := by
  unfold live
  split
  · exact settle_capacities _ (hf h)
  · exact h

theorem discardLoad_capacities (l : Loading) (s : State)
    (h : Capacities s) : Capacities (discardLoad l s) := by
  unfold discardLoad
  split
  · exact modBank_capacities _ _ _ h
  · refine modHot_capacities _ _ h ?_
    exact setShadow_holds (es := []) h.hot
  · exact modHot_capacities _ _ h ⟨h.3, Nat.zero_le _⟩

theorem breakOff_capacities (s : State) (h : Capacities s) : Capacities (breakOff s) := by
  unfold breakOff
  repeat' split
  all_goals repeat' first
      | with_reducible exact h
      | with_reducible apply modArb_capacities
      | with_reducible apply discardLoad_capacities
      | exact ⟨h.1, h.2, h.3, h.4, h.5, h.6, h.7, h.8, h.9, h.10, h.11, h.12, h.13⟩

theorem abandonTap_capacities (sd : Side) (s : State)
    (h : Capacities s) : Capacities (abandonTap sd s) := by
  unfold abandonTap
  repeat' first
      | with_reducible exact h
      | with_reducible apply releaseReservations_capacities
      | with_reducible apply releaseContext_capacities
      | with_reducible apply recordRefusal_capacities

theorem restartTransaction_capacities (sd : Side) (s : State)
    (h : Capacities s) : Capacities (restartTransaction sd s) := by
  unfold restartTransaction
  repeat' split
  all_goals repeat' first
      | with_reducible exact h
      | with_reducible apply modTap_capacities
      | with_reducible apply closeRecord_capacities
      | with_reducible apply withdrawIntent_capacities
      | with_reducible apply tearHandOff_capacities
      | with_reducible apply abandonTap_capacities
      | exact nofun

theorem restartTap_capacities (sd : Side) (s : State)
    (h : Capacities s) : Capacities (restartTap sd s) := by
  unfold restartTap
  all_goals repeat' first
      | with_reducible exact h
      | with_reducible apply setTap_capacities
      | with_reducible apply setEngine_capacities
      | with_reducible apply releaseBank_capacities
      | with_reducible apply restartTransaction_capacities

theorem restartGate_capacities (s : State) (h : Capacities s) : Capacities (restartGate s) := by
  have hw := withdrawAll_capacities false s h
  have hg := hw.grants
  unfold restartGate
  refine modGate_capacities _ _ hw ?_
  dsimp only at *
  omega

theorem restartStore_capacities (s : State) (h : Capacities s) : Capacities (restartStore s) := by
  have hb := breakOff_capacities _ h
  have hm := modHot_capacities (fun h => abandonMerge (takeAdditions h)) _ hb
    (abandonMerge_holds (takeAdditions_holds hb.hot))
  exact ⟨hm.1, hm.2, hm.3, hm.4, hm.5, hm.6, hm.7, hm.8, hm.9, hm.10, hm.11, hm.12, hm.13⟩

theorem restartRing_capacities (s : State) (h : Capacities s) : Capacities (restartRing s) := by
  refine modRing_capacities _ _ h ⟨?_, by simp, h.8, by simp⟩
  have := h.insertion
  dsimp only
  omega

theorem resolveChange_capacities (s : State) (h : Capacities s) : Capacities (resolveChange s) := by
  unfold resolveChange
  split
  · exact h
  · dsimp only
    split
    · exact writeSlot_capacities _ _ _ ⟨h.1, h.2, h.3, h.4, h.5, h.6, h.7, h.8, h.9, h.10, h.11, h.12, h.13⟩
    · exact ⟨h.1, h.2, h.3, h.4, h.5, h.6, h.7, h.8, h.9, h.10, h.11, h.12, h.13⟩

theorem restartDecoder_capacities (s : State)
    (h : Capacities s) : Capacities (restartDecoder s) := by
  have hr := resolveChange_capacities _ h
  exact ⟨hr.1, hr.2, hr.3, hr.4, hr.5, hr.6, hr.7, hr.8, hr.9, hr.10, hr.11, hr.12, hr.13⟩

theorem restartJournal_capacities (s : State)
    (h : Capacities s) : Capacities (restartJournal s) := by
  refine modJournal_capacities _ _ h ?_
  have := h.journal
  dsimp only
  omega

theorem warmRestart_capacities (s : State) (h : Capacities s) : Capacities (warmRestart s) := by
  have he := restartStore_capacities _ (restartJournal_capacities _ (restartGate_capacities _
    (restartTap_capacities .b _ (restartTap_capacities .a _ h))))
  have hr := restartRing_capacities _ (restartDecoder_capacities _ he)
  exact ⟨hr.1, hr.2, hr.3, hr.4, hr.5, hr.6, hr.7, hr.8, hr.9, hr.10, hr.11, hr.12, hr.13⟩

theorem frameEnds_capacities (s : State) (h : Capacities s) : Capacities (frameEnds s) := by
  unfold frameEnds
  repeat' split
  all_goals repeat' first
      | with_reducible exact h
      | with_reducible apply frameLeaves_capacities
      | with_reducible apply warmRestart_capacities

theorem periodExpires_capacities (passing : Bool) (s : State)
    (h : Capacities s) : Capacities (periodExpires passing s) := by
  unfold periodExpires
  repeat' split
  all_goals repeat' first
      | with_reducible exact h
      | exact ⟨h.1, h.2, h.3, h.4, h.5, h.6, h.7, h.8, h.9, h.10, h.11, h.12, h.13⟩

theorem leaveRepeater_capacities (s : State) (h : Capacities s) : Capacities (leaveRepeater s) := by
  unfold leaveRepeater
  repeat' split
  all_goals repeat' first
      | with_reducible exact h
      | exact ⟨h.1, h.2, h.3, h.4, h.5, h.6, h.7, h.8, h.9, h.10, h.11, h.12, h.13⟩

theorem holdReset_capacities (s : State) (h : Capacities s) : Capacities (holdReset s) := by
  have hr := resolveChange_capacities _ h
  exact ⟨hr.1, hr.2, hr.3, hr.4, hr.5, hr.6, hr.7, hr.8, hr.9, hr.10, hr.11, hr.12, hr.13⟩

theorem coldState_capacities (s : State) (_h : Capacities s) : Capacities (coldState s) :=
  ⟨by simp [coldState, State.reset], by simp [coldState, State.reset],
    by simp [coldState, State.reset], by simp [coldState, State.reset],
    by simp [coldState, State.reset], by simp [coldState, State.reset],
    by simp [coldState, State.reset], by simp [coldState, State.reset],
    by simp [coldState, State.reset], by simp [coldState, State.reset],
    by simp [coldState, State.reset], by simp [coldState, State.reset],
    by simp [coldState, State.reset]⟩

theorem coldStart_capacities (gateNo : Nat) (passing : Bool) (s : State)
    (h : Capacities s) : Capacities (coldStart gateNo passing s) := by
  have hc := coldState_capacities _ (resolveChange_capacities _ h)
  exact ⟨hc.1, hc.2, hc.3, hc.4, hc.5, hc.6, hc.7, hc.8, hc.9, hc.10, hc.11, hc.12, hc.13⟩

theorem losePower_capacities (s : State) (h : Capacities s) : Capacities (losePower s) := by
  have hc := coldState_capacities _ (resolveChange_capacities _ h)
  exact ⟨hc.1, hc.2, hc.3, hc.4, hc.5, hc.6, hc.7, hc.8, hc.9, hc.10, hc.11, hc.12, hc.13⟩

theorem fillAnswer_capacities (request : Byte) (code : AnswerCode) (data : List Byte) (s : State)
    (h : Capacities s) : Capacities (fillAnswer request code data s) := by
  have ha := h.answers
  refine modRing_capacities _ _ h ?_
  dsimp only
  split
  · rename_i hc
    simp only [answerUsed] at hc
    exact ⟨h.6, h.7, h.8, by simp; omega⟩
  · exact ⟨h.6, h.7, h.8, by dsimp only; omega⟩

theorem finishRequest_capacities (next : DecoderState) (request : Request) (code : AnswerCode)
    (data : List Byte) (s : State)
    (h : Capacities s) : Capacities (finishRequest next request code data s) := by
  exact fillAnswer_capacities _ _ _ _ (modDecoder_capacities _ _ h)

theorem answerCode_capacities (request : Request) (code : AnswerCode) (s : State)
    (h : Capacities s) : Capacities (answerCode request code s) := by
  exact finishRequest_capacities _ _ _ _ _ h

theorem answerData_capacities (request : Request) (data : List Byte) (s : State)
    (h : Capacities s) : Capacities (answerData request data s) := by
  exact finishRequest_capacities _ _ _ _ _ h

theorem takeInHand_capacities (q : InHand) (s : State)
    (h : Capacities s) : Capacities (takeInHand q s) := by
  exact modDecoder_capacities _ _ h

theorem ownSetup_capacities (params : List Byte) (s : State)
    (h : Capacities s) : Capacities (ownSetup params s) := by
  unfold ownSetup
  repeat' split
  all_goals repeat' first
      | with_reducible exact h
      | with_reducible apply deriveGate_capacities
      | with_reducible apply answerCode_capacities
      | exact ⟨h.1, h.2, h.3, h.4, h.5, h.6, h.7, h.8, h.9, h.10, h.11, h.12, h.13⟩

theorem freeOn_capacities (s : State) (h : Capacities s) : Capacities (freeOn s) := by
  unfold freeOn
  all_goals repeat' first
      | with_reducible exact h
      | with_reducible apply deriveGate_capacities
      | exact ⟨h.1, h.2, h.3, h.4, h.5, h.6, h.7, h.8, h.9, h.10, h.11, h.12, h.13⟩

theorem freeOff_capacities (s : State) (h : Capacities s) : Capacities (freeOff s) := by
  unfold freeOff
  all_goals repeat' first
      | with_reducible exact h
      | with_reducible apply deriveGate_capacities
      | exact ⟨h.1, h.2, h.3, h.4, h.5, h.6, h.7, h.8, h.9, h.10, h.11, h.12, h.13⟩

theorem ownGate_capacities (params : List Byte) (s : State)
    (h : Capacities s) : Capacities (ownGate params s) := by
  unfold ownGate
  repeat' split
  all_goals repeat' first
      | with_reducible exact h
      | with_reducible apply releaseAlarm_capacities
      | with_reducible apply answerCode_capacities
      | with_reducible apply freeOn_capacities
      | with_reducible apply freeOff_capacities

theorem ownCountersClear_capacities (s : State)
    (h : Capacities s) : Capacities (ownCountersClear s) := by
  refine answerData_capacities _ _ _ ?_
  exact ⟨h.1, h.2, h.3, h.4, h.5, h.6, h.7, h.8, h.9, h.10, h.11, h.12, h.13⟩

theorem askChange_capacities (q : InHand) (slot : Nat) (after : KeySlot) (s : State)
    (h : Capacities s) : Capacities (askChange q slot after s) := by
  exact ⟨h.1, h.2, h.3, h.4, h.5, h.6, h.7, h.8, h.9, h.10, h.11, h.12, h.13⟩

theorem ownKeyWrite_capacities (q : InHand) (s : State)
    (h : Capacities s) : Capacities (ownKeyWrite q s) := by
  unfold ownKeyWrite
  dsimp only
  repeat' split
  all_goals repeat' first
      | with_reducible exact h
      | with_reducible apply answerCode_capacities
      | with_reducible apply askChange_capacities

theorem ownKeyLock_capacities (q : InHand) (s : State)
    (h : Capacities s) : Capacities (ownKeyLock q s) := by
  unfold ownKeyLock
  dsimp only
  repeat' split
  all_goals repeat' first
      | with_reducible exact h
      | with_reducible apply answerCode_capacities
      | with_reducible apply askChange_capacities

theorem changeDone_capacities (s : State) (h : Capacities s) : Capacities (changeDone s) := by
  unfold changeDone
  dsimp only
  repeat' split
  all_goals repeat' first
      | with_reducible exact h
      | with_reducible apply modDecoder_capacities
      | with_reducible apply writeSlot_capacities
      | with_reducible apply answerData_capacities

theorem beginLoad_capacities (kind : LoadKind) (bank : BankId) (length : Nat) (s : State)
    (h : Capacities s) : Capacities (beginLoad kind bank length s) := by
  refine answerCode_capacities _ _ _ ?_
  exact ⟨h.1, h.2, h.3, h.4, h.5, h.6, h.7, h.8, h.9, h.10, h.11, h.12, h.13⟩

theorem beginAt_capacities (kind : LoadKind) (length : Nat) (s : State)
    (h : Capacities s) : Capacities (beginAt kind length s) := by
  unfold beginAt
  split
  · dsimp only
    split
    · exact answerCode_capacities _ _ _ h
    · exact beginLoad_capacities _ _ _ _ (modBank_capacities _ _ _ h)
  · split
    · refine beginLoad_capacities _ _ _ _ (modHot_capacities _ _ h ?_)
      exact setShadow_holds (es := []) h.hot
    · exact answerCode_capacities _ _ _ h
  · split
    · exact answerCode_capacities _ _ _ h
    · exact beginLoad_capacities _ _ _ _ (modHot_capacities _ _ h ⟨h.3, Nat.zero_le _⟩)

theorem ownLoadBegin_capacities (params : List Byte) (s : State)
    (h : Capacities s) : Capacities (ownLoadBegin params s) := by
  unfold ownLoadBegin
  dsimp only
  repeat' split
  all_goals repeat' first
      | with_reducible exact h
      | with_reducible apply breakOff_capacities
      | with_reducible apply answerCode_capacities
      | with_reducible apply beginAt_capacities

theorem ownLoadData_capacities (q : InHand) (s : State)
    (h : Capacities s) : Capacities (ownLoadData q s) := by
  unfold ownLoadData
  dsimp only
  repeat' split
  all_goals repeat' first
      | with_reducible exact h
      | with_reducible apply askLoader_capacities
      | with_reducible apply breakOff_capacities
      | with_reducible apply answerCode_capacities
      | with_reducible apply takeInHand_capacities

theorem failLoad_capacities (code : AnswerCode) (s : State)
    (h : Capacities s) : Capacities (failLoad code s) := by
  unfold failLoad
  all_goals repeat' first
      | with_reducible exact h
      | with_reducible apply breakOff_capacities
      | with_reducible apply answerCode_capacities

theorem setPhase_capacities (l : Loading) (p : LoadPhase) (s : State)
    (h : Capacities s) : Capacities (setPhase l p s) := by
  exact ⟨h.1, h.2, h.3, h.4, h.5, h.6, h.7, h.8, h.9, h.10, h.11, h.12, h.13⟩

theorem askRead_capacities (l : Loading) (p : LoadPhase) (s : State)
    (h : Capacities s) : Capacities (askRead l p s) := by
  exact ⟨h.1, h.2, h.3, h.4, h.5, h.6, h.7, h.8, h.9, h.10, h.11, h.12, h.13⟩

theorem ownLoadEnd_capacities (q : InHand) (s : State)
    (h : Capacities s) : Capacities (ownLoadEnd q s) := by
  have hw := takeInHand_capacities q s h
  unfold ownLoadEnd
  dsimp only
  split
  · exact answerCode_capacities _ _ _ h
  · split
    · split
      · split
        · exact askRead_capacities _ _ _ ⟨hw.1, hw.2, hw.3, hw.4, hw.5, hw.6, hw.7, hw.8, hw.9, hw.10, hw.11, hw.12, hw.13⟩
        · exact failLoad_capacities _ _ hw
      · exact askRead_capacities _ _ _ hw
    · exact failLoad_capacities _ _ h

theorem loadDone_capacities (s : State) (h : Capacities s) : Capacities (loadDone s) := by
  refine answerCode_capacities _ _ _ ?_
  exact ⟨h.1, h.2, h.3, h.4, h.5, h.6, h.7, h.8, h.9, h.10, h.11, h.12, h.13⟩

theorem acceptFare_capacities (l : Loading) (s : State)
    (h : Capacities s) : Capacities (acceptFare l s) := by
  unfold acceptFare
  dsimp only
  repeat' split
  all_goals repeat' first
      | with_reducible exact h
      | with_reducible apply modBank_capacities
      | with_reducible apply activateIfDue_capacities
      | with_reducible apply failLoad_capacities
      | with_reducible apply loadDone_capacities

theorem acceptFull_capacities (s : State) (h : Capacities s) : Capacities (acceptFull s) := by
  unfold acceptFull
  split
  · refine loadDone_capacities _ (modHot_capacities _ _ h
      (swapBanks_holds _ (setShadow_holds h.hot)))
  · exact failLoad_capacities _ _ h

theorem acceptDelta_capacities (ops : List DeltaOp) (s : State)
    (h : Capacities s) (hl : ops.length ≤ 512) : Capacities (acceptDelta ops s) := by
  unfold acceptDelta
  split
  · refine loadDone_capacities _ (modHot_capacities _ _ h ?_)
    exact setShadow_holds (es := []) (h := { s.hot with deltaCond := .present, deltaOps := ops, deltaBase := imageHalf s.hot.image 0, deltaNew := imageHalf s.hot.image 2, image := [] }) ⟨h.3, hl⟩
  · exact failLoad_capacities _ _ h

theorem judgeDelta_capacities (l : Loading) (s : State)
    (h : Capacities s) : Capacities (judgeDelta l s) := by
  unfold judgeDelta
  repeat' split
  all_goals repeat' first
      | with_reducible exact h
      | with_reducible apply failLoad_capacities
      | with_reducible apply askRead_capacities
      | with_reducible apply acceptDelta_capacities
      | exact parseDelta_length ‹_›

theorem judgeContents_capacities (l : Loading) (s : State)
    (h : Capacities s) : Capacities (judgeContents l s) := by
  unfold judgeContents
  repeat' split
  all_goals repeat' first
      | with_reducible exact h
      | with_reducible apply acceptFare_capacities
      | with_reducible apply acceptFull_capacities
      | with_reducible apply judgeDelta_capacities

theorem feedTableCode_capacities (piece : List Byte) (s : State) (h : Capacities s) :
    Capacities (feedTableCode piece s) := by
  unfold feedTableCode
  split <;> first | exact h | exact ⟨h.1, h.2, h.3, h.4, h.5, h.6, h.7, h.8, h.9, h.10, h.11, h.12, h.13⟩

theorem loaderReads_capacities (l : Loading) (s : State)
    (h : Capacities s) : Capacities (loaderReads l s) := by
  unfold loaderReads
  dsimp only
  repeat' split
  all_goals repeat' first
      | with_reducible exact h
      | with_reducible apply failLoad_capacities
      | with_reducible apply setPhase_capacities
      | with_reducible apply feedTableCode_capacities
      | with_reducible apply askRead_capacities
      | with_reducible apply acceptDelta_capacities
      | exact parseDelta_length ‹_›
      | with_reducible apply judgeContents_capacities
      | exact ⟨h.1, h.2, h.3, h.4, h.5, h.6, h.7, h.8, h.9, h.10, h.11, h.12, h.13⟩

theorem writeImage_capacities (l : Loading) (data : List Byte) (s : State)
    (h : Capacities s) : Capacities (writeImage l data s) := by
  unfold writeImage
  split
  · exact modBank_capacities _ _ _ h
  · exact modHot_capacities _ _ h h.hot

theorem loaderWrites_capacities (data : List Byte) (s : State)
    (h : Capacities s) : Capacities (loaderWrites data s) := by
  unfold loaderWrites
  split
  · exact h
  · rename_i l _
    have hw := writeImage_capacities l data s h
    exact answerCode_capacities _ _ _ ⟨hw.1, hw.2, hw.3, hw.4, hw.5, hw.6, hw.7, hw.8, hw.9, hw.10, hw.11, hw.12, hw.13⟩

theorem verifyTable_capacities (key : Key) (read : List Byte) (s : State)
    (h : Capacities s) : Capacities (verifyTable key read s) := by
  unfold verifyTable
  repeat' split
  all_goals repeat' first
      | with_reducible exact h
      | with_reducible apply failLoad_capacities
      | with_reducible apply askRead_capacities

theorem ownRequest_capacities (q : InHand) (s : State)
    (h : Capacities s) : Capacities (ownRequest q s) := by
  unfold ownRequest
  repeat' split
  all_goals repeat' first
      | with_reducible exact h
      | with_reducible apply finishRequest_capacities
      | with_reducible apply answerData_capacities
      | with_reducible apply ownSetup_capacities
      | with_reducible apply ownGate_capacities
      | with_reducible apply ownCountersClear_capacities
      | with_reducible apply ownKeyWrite_capacities
      | with_reducible apply ownKeyLock_capacities
      | with_reducible apply ownLoadBegin_capacities
      | with_reducible apply ownLoadData_capacities
      | with_reducible apply ownLoadEnd_capacities

theorem strapCheck_capacities (q : InHand) (s : State)
    (h : Capacities s) : Capacities (strapCheck q s) := by
  unfold strapCheck
  repeat' split
  all_goals repeat' first
      | with_reducible exact h
      | with_reducible apply answerCode_capacities
      | with_reducible apply ownRequest_capacities

theorem protect_capacities (q : InHand) (s : State)
    (h : Capacities s) : Capacities (protect q s) := by
  unfold protect
  dsimp only
  repeat' split
  all_goals repeat' first
      | with_reducible exact h
      | with_reducible apply answerCode_capacities
      | with_reducible apply takeInHand_capacities
      | with_reducible apply strapCheck_capacities
      | exact ⟨h.1, h.2, h.3, h.4, h.5, h.6, h.7, h.8, h.9, h.10, h.11, h.12, h.13⟩

theorem verifyLine_capacities (key : Key) (s : State)
    (h : Capacities s) : Capacities (verifyLine key s) := by
  unfold verifyLine
  repeat' split
  all_goals repeat' first
      | with_reducible exact h
      | with_reducible apply answerCode_capacities
      | with_reducible apply strapCheck_capacities

theorem ringEngineDone_capacities (job : RingJob) (s : State)
    (h : Capacities s) : Capacities (ringEngineDone job s) := by
  unfold ringEngineDone
  dsimp only
  repeat' split
  all_goals repeat' first
      | with_reducible exact h
      | with_reducible apply verifyTable_capacities
      | with_reducible apply verifyLine_capacities
      | exact ⟨h.1, h.2, h.3, h.4, h.5, h.6, h.7, h.8, h.9, h.10, h.11, h.12, h.13⟩

theorem judgeRequest_capacities (r : Request) (f : RingFrame) (s : State)
    (h : Capacities s) : Capacities (judgeRequest r f s) := by
  unfold judgeRequest
  dsimp only
  repeat' split
  all_goals repeat' first
      | with_reducible exact h
      | with_reducible apply answerCode_capacities
      | with_reducible apply ownRequest_capacities
      | with_reducible apply protect_capacities

theorem holdPlace_capacities (s : State) (h : Capacities s) (hu : answerUsed s.ring < 4) :
    Capacities (holdPlace s) := by
  exact modRing_capacities _ _ h ⟨h.6, h.7, h.8, by simp only [answerUsed] at hu; dsimp only; omega⟩

theorem handRequest_capacities (f : RingFrame) (judge : State → State) (s : State)
    (h : Capacities s) (hj : ∀ s, Capacities s → Capacities (judge s)) :
    Capacities (handRequest f judge s) := by
  unfold handRequest
  split
  · exact hj _ h
  · exact fillAnswer_capacities _ _ _ _ h

theorem receiveRequest_capacities (f : RingFrame) (judge : State → State) (s : State)
    (h : Capacities s) (hj : ∀ s, Capacities s → Capacities (judge s)) :
    Capacities (receiveRequest f judge s) := by
  have hp := forwardIfAll_capacities f s h
  have hu : answerUsed (forwardIfAll f s).ring = answerUsed s.ring := by
    unfold forwardIfAll forwardFrame
    repeat' split
    all_goals first | rfl | (simp only [modRing_ring]; split <;> rfl)
  unfold receiveRequest
  dsimp only
  split
  · exact handRequest_capacities _ _ _ (holdPlace_capacities _ hp (hu ▸ ‹_›)) hj
  · exact hp

theorem arriveRequest_capacities (r : Request) (f : RingFrame) (s : State)
    (h : Capacities s) : Capacities (arriveRequest r f s) := by
  unfold arriveRequest
  split
  · exact receiveRequest_capacities _ _ _ h (fun s h => judgeRequest_capacities _ _ s h)
  · exact h

theorem arriveProtected_capacities (r : Request) (f : RingFrame) (keyload : Bool) (s : State)
    (h : Capacities s) : Capacities (arriveProtected r f keyload s) := by
  unfold arriveProtected
  all_goals repeat' first
      | with_reducible exact h
      | with_reducible apply arriveRequest_capacities
      | exact ⟨h.1, h.2, h.3, h.4, h.5, h.6, h.7, h.8, h.9, h.10, h.11, h.12, h.13⟩

theorem arriveGate_capacities (admits : Nat → Bool) (f : RingFrame) (keyload : Bool) (s : State)
    (h : Capacities s) : Capacities (arriveGate admits f keyload s) := by
  unfold arriveGate
  repeat' split
  all_goals repeat' first
      | with_reducible exact h
      | with_reducible apply arriveProtected_capacities
      | exact ⟨h.1, h.2, h.3, h.4, h.5, h.6, h.7, h.8, h.9, h.10, h.11, h.12, h.13⟩

theorem judgeUnknown_capacities (f : RingFrame) (s : State)
    (h : Capacities s) : Capacities (judgeUnknown f s) := by
  exact fillAnswer_capacities _ _ _ _ h

theorem arriveUnknown_capacities (f : RingFrame) (s : State)
    (h : Capacities s) : Capacities (arriveUnknown f s) := by
  unfold arriveUnknown
  split
  · exact receiveRequest_capacities _ _ _ h (fun s h => judgeUnknown_capacities _ s h)
  · exact h

theorem engineCompletes_capacities (engine : EngineId) (keyload : Bool) (s : State)
    (h : Capacities s) : Capacities (engineCompletes engine keyload s) := by
  unfold engineCompletes
  repeat' split
  all_goals repeat' first
      | with_reducible exact h
      | with_reducible apply chanEngineDone_capacities
      | with_reducible apply ringEngineDone_capacities
      | exact ⟨h.1, h.2, h.3, h.4, h.5, h.6, h.7, h.8, h.9, h.10, h.11, h.12, h.13⟩

theorem serveLookup_capacities (sd : Side) (s : State)
    (h : Capacities s) : Capacities (serveLookup sd s) := by
  unfold serveLookup
  dsimp only
  repeat' split
  all_goals repeat' first
      | with_reducible exact h
      | with_reducible apply grantReady_capacities
      | with_reducible apply endGrant_capacities
      | with_reducible apply check4_capacities

theorem serveBankRead_capacities (sd : Side) (s : State)
    (h : Capacities s) : Capacities (serveBankRead sd s) := by
  unfold serveBankRead
  dsimp only
  repeat' split
  all_goals repeat' first
      | with_reducible exact h
      | with_reducible apply grantReady_capacities
      | with_reducible apply endGrant_capacities
      | with_reducible apply bankCheck_capacities

theorem serveMerge_capacities (s : State) (h : Capacities s) : Capacities (serveMerge s) := by
  have hg := grantReady_capacities s h
  unfold serveMerge
  dsimp only
  split
  · exact modHot_capacities _ _ (endGrant_capacities _ hg) (mergeAdvance_holds hg.hot)
  · exact h

theorem serveWrite_capacities (s : State) (h : Capacities s) : Capacities (serveWrite s) := by
  unfold serveWrite
  dsimp only
  repeat' split
  all_goals repeat' first
      | with_reducible exact h
      | with_reducible apply grantReady_capacities
      | with_reducible apply endGrant_capacities
      | with_reducible apply loaderWrites_capacities

theorem serveRead_capacities (s : State) (h : Capacities s) : Capacities (serveRead s) := by
  unfold serveRead
  dsimp only
  repeat' split
  all_goals repeat' first
      | with_reducible exact h
      | with_reducible apply grantReady_capacities
      | with_reducible apply endGrant_capacities
      | with_reducible apply loaderReads_capacities

theorem passTimerEnds_capacities (s : State) (h : Capacities s) : Capacities (passTimerEnds s) := by
  unfold passTimerEnds
  repeat' split
  all_goals repeat' first
      | with_reducible exact h
      | with_reducible apply passExpiry_capacities

theorem stopTimerEnds_capacities (sd : Side) (s : State)
    (h : Capacities s) : Capacities (stopTimerEnds sd s) := by
  exact ⟨h.1, h.2, h.3, h.4, h.5, h.6, h.7, h.8, h.9, h.10, h.11, h.12, h.13⟩

theorem receiveSighting_capacities (f : RingFrame) (s : State)
    (h : Capacities s) : Capacities (receiveSighting f s) := by
  unfold receiveSighting
  repeat' split
  all_goals repeat' first
      | with_reducible exact h
      | with_reducible apply arriveSighting_capacities
      | with_reducible apply forwardIfAll_capacities

theorem receiveNotice_capacities (f : RingFrame) (s : State)
    (h : Capacities s) : Capacities (receiveNotice f s) := by
  unfold receiveNotice
  repeat' split
  all_goals repeat' first
      | with_reducible exact h
      | with_reducible apply arriveNotice_capacities
      | with_reducible apply forwardIfAll_capacities

theorem receiveBeacon_capacities (f : RingFrame) (s : State)
    (h : Capacities s) : Capacities (receiveBeacon f s) := by
  unfold receiveBeacon
  repeat' split
  all_goals repeat' first
      | with_reducible exact h
      | with_reducible apply forwardFrame_capacities
      | with_reducible apply takeBeacon_capacities

theorem receiveOwn_capacities (f : RingFrame) (s : State)
    (h : Capacities s) : Capacities (receiveOwn f s) := by
  unfold receiveOwn
  repeat' split
  all_goals repeat' first
      | with_reducible exact h
      | with_reducible apply stripFrame_capacities

theorem dropBytes_capacities (_bytes : List Byte) (s : State)
    (h : Capacities s) : Capacities (dropBytes _bytes s) := by
  exact ⟨h.1, h.2, h.3, h.4, h.5, h.6, h.7, h.8, h.9, h.10, h.11, h.12, h.13⟩

theorem receivePassing_capacities (f : RingFrame) (s : State)
    (h : Capacities s) : Capacities (receivePassing f s) := by
  unfold receivePassing
  repeat' split
  all_goals repeat' first
      | with_reducible exact h
      | with_reducible apply forwardFrame_capacities

theorem dropRequest_capacities (f : RingFrame) (s : State)
    (h : Capacities s) : Capacities (dropRequest f s) := by
  unfold dropRequest
  repeat' split
  all_goals repeat' first
      | with_reducible exact h
      | with_reducible apply forwardIfAll_capacities

theorem restartLeaves_capacities (s : State) (h : Capacities s) : Capacities (restartLeaves s) := by
  unfold restartLeaves
  repeat' split
  all_goals repeat' first
      | with_reducible exact h
      | with_reducible apply frameEnds_capacities

theorem moveTimers_capacities (s : State) (h : Capacities s) : Capacities (moveTimers s) := by
  exact ⟨h.1, h.2, h.3, h.4, h.5, h.6, h.7, h.8, h.9, h.10, h.11, h.12, h.13⟩

theorem fire_capacities (due : State → Bool) (f : State → State) (s : State) (h : Capacities s)
    (hf : ∀ s, Capacities s → Capacities (f s)) : Capacities (fire due f s) := by
  unfold fire
  split
  · exact settle_capacities _ (hf _ h)
  · exact h

theorem ageAll_capacities (s : State) (h : Capacities s) : Capacities (ageAll s) := by
  exact modRing_capacities _ _ h ⟨h.6, h.7, Nat.le_trans (List.length_filter_le _ _) h.8, h.9⟩

theorem fireSide_capacities (sd : Side) (s : State)
    (h : Capacities s) : Capacities (fireSide sd s) := by
  unfold fireSide
  all_goals repeat' first
      | with_reducible exact h
      | with_reducible apply answerExpires_capacities
      | with_reducible apply pollExpires_capacities
      | with_reducible apply fieldEmptied_capacities
      | with_reducible apply holdExpires_capacities
      | with_reducible apply fire_capacities

theorem fireLine_capacities (s : State) (h : Capacities s) : Capacities (fireLine s) := by
  unfold fireLine
  all_goals repeat' first
      | with_reducible exact h
      | with_reducible apply advanceLineTime_capacities
      | with_reducible apply watchExpires_capacities
      | with_reducible apply periodExpires_capacities
      | with_reducible apply fire_capacities
      | with_reducible apply ageAll_capacities

theorem fireGate_capacities (s : State) (h : Capacities s) : Capacities (fireGate s) := by
  unfold fireGate
  all_goals repeat' first
      | with_reducible exact h
      | with_reducible apply passTimerEnds_capacities
      | with_reducible apply stopTimerEnds_capacities
      | with_reducible apply fire_capacities

theorem tick_capacities (s : State) (h : Capacities s) : Capacities (tick s) := by
  unfold tick
  repeat' split
  all_goals repeat' first
      | with_reducible exact h
      | with_reducible apply moveTimers_capacities
      | with_reducible apply fireSide_capacities
      | with_reducible apply fireLine_capacities
      | with_reducible apply fireGate_capacities

end Sys2Proof.Machine
end

