-- ==== Sys2Proof/Laws/Refusal.lean ====
section
/-! SUPPORT. What the refusal of a transaction that holds nothing does, said once (R36): every check that
refuses cites this lemma. -/

namespace Sys2Proof.Machine

/-- Nothing held is released. -/
theorem releaseReservations_nothing {s : State} {sd : Side} (h : HoldsNothing s sd) :
    releaseReservations sd s = s := by
  simp [releaseReservations, releaseGrantSlot, releaseJournal, releaseInsertion, h.grant, h.journal,
    h.insertion]

/-- The Journal Queue after an unreserved record has been offered (R192). -/
def journalOffered (r : JournalRecord) (j : Journal) : Journal :=
  if 1 ≤ journalAvailable j then storeRecord r j
  else { j with counters := { j.counters with unrecorded := advance32 j.counters.unrecorded } }

/-- An unreserved record changes the Journal Queue alone. -/
theorem offerRecord_eq (r : JournalRecord) (s : State) :
    offerRecord r s = { s with journal := journalOffered r s.journal } := by
  unfold offerRecord journalOffered
  split <;> rfl

/-- A refusal of a transaction that holds nothing, as one record of changes. -/
theorem refuse_nothing {s : State} {sd : Side} (code : RefusalCode) (h : HoldsNothing s sd) :
    refuse sd code s =
      { s with
        chans := s.chans.set sd
          { s.chans.get sd with outstanding := some ⟨.halt, 1⟩, answerTimer := none }
        taps := s.taps.set sd
          { s.taps.get sd with
            ending := true, hold := none
            record := { (s.taps.get sd).record with refusal := some code } }
        gate :=
          { s.gate with stopTimer := s.gate.stopTimer.set sd (some ⟨2000, categoryOf code⟩) }
        journal :=
          let r := refusalRecord s sd .refused code
          { journalOffered r s.journal with
            counters := countRefusal code (journalOffered r s.journal).counters } } := by
  have hr : recordRefusal sd .refused code (startStop sd (categoryOf code) s) =
      { s with
        taps := s.taps.set sd
          { s.taps.get sd with record := { (s.taps.get sd).record with refusal := some code } }
        gate :=
          { s.gate with stopTimer := s.gate.stopTimer.set sd (some ⟨2000, categoryOf code⟩) }
        journal :=
          let r := refusalRecord s sd .refused code
          { journalOffered r s.journal with
            counters := countRefusal code (journalOffered r s.journal).counters } } := by
    unfold recordRefusal
    rw [offerRecord_eq]
    rfl
  have hc : heldContext (recordRefusal sd .refused code (startStop sd (categoryOf code) s)) sd =
      none := by
    rw [hr]
    exact h.context
  unfold refuse refuseSequence releaseContext
  rw [releaseReservations_nothing h, hc]
  dsimp only
  rw [hr]
  simp [askHalt, sendCommand, modTap, modChan, setTap, setChan, windowOf]

/-- A refusal at an engaged channel, of a transaction that holds nothing, does what R36 says. -/
theorem refuse_refused {s : State} {sd : Side} (code : RefusalCode) (h : HoldsNothing s sd)
    (he : (s.chans.get sd).state = .engaged) : Refused sd code s (settle (refuse sd code s)) := by
  rw [refuse_nothing code h]
  refine ⟨?_, by simp, by simp, by simp, ?_, ?_, ?_, ?_⟩
  · rw [settle_chan]
    simp [channelEnabled, he]
  · rw [settle_journal]
    simp only [countRefusal, journalOffered]
    split <;> rfl
  · intro ha
    rw [settle_journal]
    simp only [journalOffered, if_pos ha]
    exact ⟨_, rfl, rfl, rfl, rfl, rfl, rfl, rfl, rfl, rfl, rfl⟩
  · intro ha
    rw [settle_journal]
    simp only [journalOffered, ha]
    exact ⟨rfl, rfl⟩
  · refine ⟨?_, ?_, ?_, ?_, ?_, ?_, ?_, ?_⟩ <;> simp [standing]

end Sys2Proof.Machine
end

