-- ==== Sys2Proof/Laws/Sightings.lean ====
section
/-! SUPPORT. What the operations of the Sighting Monitor and the insertion queue do, in the words of the
rules (Sys2Proof/Safety.lean): the joining of a frame, the withdrawal of an INTENT, a sighting taken into
the table, and a clone finding in CLAIMING. -/

namespace Sys2Proof.Machine

/-! ### The insertion queue (R97) -/

theorem displaceFirst_of {before after : List LineMsg} {o : LineMsg}
    (hb : ∀ y ∈ before, isIntentMsg y = true) (ho : isIntentMsg o = false) :
    displaceFirst (before ++ o :: after) = some (before ++ after) := by
  induction before with
  | nil => simp [displaceFirst, ho]
  | cons y ys ih =>
    have hy := hb y (by simp)
    simp [displaceFirst, hy, ih (fun z hz => hb z (by simp [hz]))]

theorem displaceFirst_none {q : List LineMsg} (hq : ∀ y ∈ q, isIntentMsg y = true) :
    displaceFirst q = none := by
  induction q with
  | nil => rfl
  | cons y ys ih => simp [displaceFirst, hq y (by simp), ih (fun z hz => hq z (by simp [hz]))]

/-- The queue that the rule gives is the one that the joining leaves. -/
theorem joinInsertion_of {m : LineMsg} {r : Ring} {q : List LineMsg} (h : Joins m r q) :
    joinInsertion m r = { r with insertion := q } := by
  unfold joinInsertion
  cases h with
  | free h => rw [if_pos h]
  | displaced before o after hf hq hb ho =>
    rw [if_neg (by omega), hq, displaceFirst_of hb ho]
  | dropped hf hq => rw [if_neg (by omega), displaceFirst_none hq]

/-- A joining is always one of the rule's three cases. -/
theorem joins_joinInsertion (m : LineMsg) (r : Ring) : Joins m r (joinInsertion m r).insertion := by
  by_cases hf : insertionUsed r < 32
  · rw [show (joinInsertion m r).insertion = r.insertion ++ [m] by simp [joinInsertion, hf]]
    exact .free hf
  · have key : ∀ q : List LineMsg, (∀ y ∈ q, isIntentMsg y = true) ∨
        ∃ before o after, q = before ++ o :: after ∧ (∀ y ∈ before, isIntentMsg y = true) ∧
          isIntentMsg o = false := by
      intro q
      induction q with
      | nil => exact .inl nofun
      | cons y ys ih =>
        cases hy : isIntentMsg y with
        | false => exact .inr ⟨[], y, ys, rfl, nofun, hy⟩
        | true =>
          rcases ih with ih | ⟨b, o, a, hq, hb, ho⟩
          · exact .inl (by simpa [hy] using ih)
          · exact .inr ⟨y :: b, o, a, by simp [hq], by simpa [hy] using hb, ho⟩
    rcases key r.insertion with h | ⟨before, o, after, hq, hb, ho⟩
    · have hj := Joins.dropped (m := m) (r := r) (by omega) h
      rwa [joinInsertion_of hj]
    · have hj := Joins.displaced (m := m) (r := r) before o after (by omega) hq hb ho
      rwa [joinInsertion_of hj]

theorem joinInsertion_insertion (m : LineMsg) (r : Ring) :
    joinInsertion m r = { r with insertion := (joinInsertion m r).insertion } :=
  joinInsertion_of (joins_joinInsertion m r)

theorem withdrawMsg_absent {m : LineMsg} {r : Ring} (h : m ∉ r.insertion) : withdrawMsg m r = r := by
  unfold withdrawMsg
  rw [List.erase_of_not_mem (by simpa using h), List.reverse_reverse]

theorem withdrawMsg_queued {m : LineMsg} {r : Ring} {before after : List LineMsg}
    (hq : r.insertion = before ++ m :: after) (ha : m ∉ after) :
    withdrawMsg m r = { r with insertion := before ++ after } := by
  unfold withdrawMsg
  have : (r.insertion.reverse.erase m).reverse = before ++ after := by
    rw [hq, List.reverse_append, List.reverse_cons, List.append_assoc,
      List.erase_append_right _ (by simpa using ha)]
    simp
  rw [this]

/-- The queue after an INTENT's withdrawal is the one that the rule gives. -/
theorem withdraw_of {r : Ring} {i : Option Sighting} {q : List LineMsg}
    (h : IntentLeaves r.insertion i q) :
    (match i with
      | some x => withdrawMsg (.sighting x) r
      | none => r) = { r with insertion := q } := by
  cases h with
  | none => rfl
  | sent x hx => exact withdrawMsg_absent hx
  | queued x before after hq ha => exact withdrawMsg_queued hq ha

theorem intentLeaves_total (q : List LineMsg) (i : Option Sighting) :
    ∃ q', IntentLeaves q i q' := by
  cases i with
  | none => exact ⟨q, .none⟩
  | some x =>
    by_cases h : LineMsg.sighting x ∈ q
    · obtain ⟨a, b, hq, hb⟩ : ∃ a b, q = a ++ LineMsg.sighting x :: b ∧ LineMsg.sighting x ∉ b := by
        obtain ⟨b, a, hq, hb⟩ := List.eq_append_cons_of_mem (List.mem_reverse.mpr h)
        refine ⟨a.reverse, b.reverse, ?_, by simpa using hb⟩
        rw [← List.reverse_reverse q, hq]
        simp
      exact ⟨_, .queued x a b hq hb⟩
    · exact ⟨q, .sent x h⟩

/-! ### A sighting taken into the table (R91 to R94, R96) -/

theorem arrivalOn_of {x : Sighting} {e e' : SightEntry} {reason : Option FindingReason}
    (h : Meets x e e' reason) : arrivalOn e x = (e', reason) := by
  unfold arrivalOn intentOn otherOn stateOn doubleReuse replaced
  cases h with
  | sameSource hs hp => simp [hs, hp]
  | contestWon ho hx he hb =>
    have : ¬ (e.sighting.source = x.source ∧ e.pin = false) := by rcases ho with h | h <;> simp [h]
    simp [hx, he, hb, this]
  | contestKept ho hx he hb =>
    have : ¬ (e.sighting.source = x.source ∧ e.pin = false) := by rcases ho with h | h <;> simp [h]
    simp [hx, he, this, Nat.not_lt.mpr hb]
  | intentBehind ho hx he hb =>
    have : ¬ (e.sighting.source = x.source ∧ e.pin = false) := by rcases ho with h | h <;> simp [h]
    unfold stateTc at hb
    cases hk : e.sighting.kind <;> simp_all
  | intentAhead ho hx he hb =>
    have : ¬ (e.sighting.source = x.source ∧ e.pin = false) := by rcases ho with h | h <;> simp [h]
    unfold stateTc at hb
    cases hk : e.sighting.kind <;> simp_all [Nat.not_lt.mpr]
  | stateBehind ho hx hb =>
    have : ¬ (e.sighting.source = x.source ∧ e.pin = false) := by rcases ho with h | h <;> simp [h]
    simp [hx, this, Nat.not_le.mpr hb]
  | stateAhead ho hx hb hd =>
    have : ¬ (e.sighting.source = x.source ∧ e.pin = false) := by rcases ho with h | h <;> simp [h]
    simp only [hx, this, hb, if_true, if_false]
    rw [if_neg]
    simpa [and_assoc] using hd
  | doubleReuse hx hxb he heb hs hr =>
    simp_all

theorem ownOn_of {x : Sighting} {e e' : SightEntry} {reason : Option FindingReason}
    (hx : x.kind ≠ .intent) (h : MeetsOwn x e e' reason) : ownOn e x = (e', reason) := by
  unfold ownOn
  cases h with
  | intent hp hk hs hu => simp [hp, hk, hs, hu, replaced]
  | other _ _ hn hm =>
    rw [if_neg hn, ← arrivalOn_of hm]
    simp [arrivalOn, hx]

/-- The head is given up when no unpinned entry behind it is older. -/
theorem oldestUnpinned_head {o : SightEntry} {after : List SightEntry} (ho : o.pin = false)
    (ha : ∀ y ∈ after, y.pin = false → o.sighting.time ≤ y.sighting.time) :
    oldestUnpinned (o :: after) = some o := by
  have least : ∀ l : List SightEntry,
      (∀ y ∈ l, y.pin = false → o.sighting.time ≤ y.sighting.time) →
      ∀ p, oldestUnpinned l = some p → o.sighting.time ≤ p.sighting.time := by
    intro l
    induction l with
    | nil => intro _ p hp; cases hp
    | cons x rest ih =>
      intro hl p hp
      have hr := ih (fun y hy => hl y (by simp [hy]))
      have hx := hl x (by simp)
      rw [oldestUnpinned] at hp
      split at hp
      · split at hp
        · cases hp
        · cases hp
          simp_all
      · rename_i q hq
        have := hr q hq
        split at hp
        · cases hp
          exact this
        · split at hp <;> cases hp
          · simp_all
          · exact this
  rw [oldestUnpinned]
  split
  · simp [ho]
  · rename_i q hq
    simp [ho, least after ha q hq]

/-- The entry that an eviction gives up. -/
theorem oldestUnpinned_of {before after : List SightEntry} {o : SightEntry} (ho : o.pin = false)
    (hb : ∀ y ∈ before, y.pin = false → o.sighting.time < y.sighting.time)
    (ha : ∀ y ∈ after, y.pin = false → o.sighting.time ≤ y.sighting.time) :
    oldestUnpinned (before ++ o :: after) = some o := by
  induction before with
  | nil => exact oldestUnpinned_head ho ha
  | cons x rest ih =>
    have hi := ih (fun y hy => hb y (by simp [hy]))
    simp only [List.cons_append, oldestUnpinned, hi]
    by_cases hx : x.pin = true
    · simp [hx]
    · have := hb x (by simp) (by simpa using hx)
      rw [if_neg hx, if_neg (by omega)]

/-- An eviction takes out the entry that it gives up. -/
theorem erase_oldest {before after : List SightEntry} {o : SightEntry} (ho : o.pin = false)
    (hb : ∀ y ∈ before, y.pin = false → o.sighting.time < y.sighting.time) :
    (before ++ o :: after).erase o = before ++ after := by
  have : o ∉ before := fun h => Nat.lt_irrefl _ (hb o h ho)
  rw [List.erase_append_right _ this]
  simp

/-- A table in which every entry is pinned gives up none. -/
theorem oldestUnpinned_none {table : List SightEntry} (h : ∀ e ∈ table, e.pin = true) :
    oldestUnpinned table = none := by
  induction table with
  | nil => rfl
  | cons e rest ih => simp [oldestUnpinned, ih (fun y hy => h y (by simp [hy])), h e (by simp)]

/-- The table that the rules give is the one that a sighting leaves, with the reason of its clone action. -/
theorem applySighting_of {rule : SightEntry → Sighting → SightEntry × Option FindingReason}
    {meets : SightEntry → SightEntry → Option FindingReason → Prop} {x : Sighting} {s : State}
    {table : List SightEntry} {reason : Option FindingReason}
    (hr : ∀ e e' reason, meets e e' reason → rule e x = (e', reason))
    (h : TableTakes meets x s.sightings table reason) :
    applySighting rule x s = ({ s with sightings := table }, reason) := by
  have absent : (∀ e ∈ s.sightings, e.sighting.uid ≠ x.uid) → entryOf s x.uid = none := by
    intro hn
    exact List.find?_eq_none.mpr (fun e he => by simpa using hn e he)
  unfold applySighting
  cases h with
  | new hn hl => rw [absent hn]; simp [insertEntry, hl, freshEntry]
  | evicted before o after hn hl hq ho hb ha =>
    rw [absent hn]
    rw [hq] at hl
    simp only [insertEntry, hq, if_neg (Nat.not_lt.mpr hl), oldestUnpinned_of ho hb ha,
      erase_oldest ho hb, freshEntry]
  | pinned hn hl hp =>
    rw [absent hn]
    simp only [insertEntry, if_neg (Nat.not_lt.mpr hl), oldestUnpinned_none hp]
  | standing e e' reason hf hm =>
    have he : entryOf s x.uid = some e := hf
    rw [he]
    simp [hr e e' reason hm, modEntry]

/-- An arriving sighting and a standing entry always meet by one of the rules. -/
theorem meets_arrivalOn (x : Sighting) (e : SightEntry) :
    Meets x e (arrivalOn e x).1 (arrivalOn e x).2 := by
  have total : ∃ e' reason, Meets x e e' reason := by
    by_cases h : e.sighting.source = x.source ∧ e.pin = false
    · exact ⟨_, _, .sameSource h.1 h.2⟩
    · have ho : e.sighting.source ≠ x.source ∨ e.pin = true := by
        by_cases hs : e.sighting.source = x.source
        · exact .inr (by simpa [hs] using h)
        · exact .inl hs
      by_cases hx : x.kind = .intent
      · by_cases he : e.sighting.kind = .intent
        · rcases Nat.lt_or_ge e.sighting.base x.base with hb | hb
          · exact ⟨_, _, .contestWon ho hx he hb⟩
          · exact ⟨_, _, .contestKept ho hx he hb⟩
        · rcases Nat.lt_or_ge x.base (stateTc e.sighting) with hb | hb
          · exact ⟨_, _, .intentBehind ho hx he hb⟩
          · exact ⟨_, _, .intentAhead ho hx he hb⟩
      · rcases Nat.lt_or_ge x.result e.sighting.result with hb | hb
        · exact ⟨_, _, .stateBehind ho hx hb⟩
        · by_cases hd : x.kind = .commit ∧ x.base = x.result ∧ e.sighting.kind = .commit ∧
              e.sighting.base = e.sighting.result ∧ e.sighting.source ≠ x.source ∧
              e.sighting.result = x.result
          · exact ⟨_, _, .doubleReuse hd.1 hd.2.1 hd.2.2.1 hd.2.2.2.1 hd.2.2.2.2.1 hd.2.2.2.2.2⟩
          · exact ⟨_, _, .stateAhead ho hx hb hd⟩
  obtain ⟨e', reason, h⟩ := total
  rwa [arrivalOn_of h]

theorem meetsOwn_ownOn {x : Sighting} (hx : x.kind ≠ .intent) (e : SightEntry) :
    MeetsOwn x e (ownOn e x).1 (ownOn e x).2 := by
  by_cases h : e.pin = true ∧ e.sighting.kind = .intent ∧ e.sighting.source = x.source ∧
      x.kind ≠ .unused
  · have := MeetsOwn.intent h.1 h.2.1 h.2.2.1 h.2.2.2
    rwa [ownOn_of hx this]
  · have := MeetsOwn.other _ _ h (meets_arrivalOn x e)
    rwa [ownOn_of hx this]

/-- A table with an unpinned entry parts at the one of the oldest line time, the first of those. -/
theorem unpinned_split (table : List SightEntry) : (∀ e ∈ table, e.pin = true) ∨
    ∃ before o after, table = before ++ o :: after ∧ o.pin = false ∧
      (∀ y ∈ before, y.pin = false → o.sighting.time < y.sighting.time) ∧
      ∀ y ∈ after, y.pin = false → o.sighting.time ≤ y.sighting.time := by
  induction table with
  | nil => exact .inl (fun _ h => (List.not_mem_nil h).elim)
  | cons a rest ih =>
    rcases ih with ih | ⟨b, o, c, hq, ho, hb, hc⟩
    · cases ha : a.pin with
      | true => exact .inl (List.forall_mem_cons.mpr ⟨ha, ih⟩)
      | false =>
        exact .inr ⟨[], a, rest, rfl, ha, fun _ h => (List.not_mem_nil h).elim, fun y hy hp =>
          absurd ((ih y hy).symm.trans hp) Bool.noConfusion⟩
    · by_cases hk : a.pin = false ∧ a.sighting.time ≤ o.sighting.time
      · refine .inr ⟨[], a, rest, rfl, hk.1, fun _ h => (List.not_mem_nil h).elim, fun y hy hp => ?_⟩
        rw [hq] at hy
        rcases List.mem_append.mp hy with hy | hy
        · exact Nat.le_of_lt (Nat.lt_of_le_of_lt hk.2 (hb y hy hp))
        · rcases List.mem_cons.mp hy with hy | hy
          · exact hy ▸ hk.2
          · exact Nat.le_trans hk.2 (hc y hy hp)
      · refine .inr ⟨a :: b, o, c, congrArg (a :: ·) hq, ho, fun y hy hp => ?_, hc⟩
        rcases List.mem_cons.mp hy with hy | hy
        · exact Nat.lt_of_not_le (fun h => hk ⟨hy ▸ hp, hy ▸ h⟩)
        · exact hb y hy hp

/-- What a sighting leaves is always one of the cases of the table. -/
theorem takes_applySighting {rule : SightEntry → Sighting → SightEntry × Option FindingReason}
    {meets : SightEntry → SightEntry → Option FindingReason → Prop} {x : Sighting} {s : State}
    (hr : ∀ e e' reason, meets e e' reason → rule e x = (e', reason))
    (hm : ∀ e, meets e (rule e x).1 (rule e x).2) :
    TableTakes meets x s.sightings (applySighting rule x s).1.sightings
        (applySighting rule x s).2 ∧
      (applySighting rule x s).1 =
        { s with sightings := (applySighting rule x s).1.sightings } := by
  have total : ∃ table reason, TableTakes meets x s.sightings table reason := by
    cases he : entryOf s x.uid with
    | some e => exact ⟨_, _, .standing e _ _ he (hm e)⟩
    | none =>
      have hn : ∀ e ∈ s.sightings, e.sighting.uid ≠ x.uid := fun e h => by
        simpa using List.find?_eq_none.mp he e h
      rcases Nat.lt_or_ge s.sightings.length 2048 with hl | hl
      · exact ⟨_, _, .new hn hl⟩
      · by_cases hp : ∀ e ∈ s.sightings, e.pin = true
        · exact ⟨_, _, .pinned hn hl hp⟩
        · rcases unpinned_split s.sightings with h | ⟨b, o, a, hq, ho, hb, ha⟩
          · exact absurd h hp
          · exact ⟨_, _, .evicted b o a hn hl hq ho hb ha⟩
  obtain ⟨table, reason, h⟩ := total
  rw [applySighting_of hr h]
  exact ⟨h, rfl⟩

/-! ### Clone actions (R101) -/

/-- A UID offered to the local hotlist. -/
theorem offerLocal_eq (u : Uid) (s : State) : offerLocal u s = { s with hot := uidOffered u s } := by
  unfold offerLocal uidOffered
  cases hi : s.arb.inUse with
  | some g => simp [modHot]
  | none =>
    cases hw : s.hot.waiting with
    | cons a r => simp [modHot, hw]
    | nil =>
      simp [modHot, addLocal, listed]
      by_cases h1 : u ∈ s.hot.localList
      · simp [h1]
      · by_cases h2 : ∃ e ∈ activeEntries s.hot, e.uid = u
        · simp [h1, h2]
        · simp [h1, h2]

/-- A party's clone action: the UID offered and the notice joined. -/
theorem cloneParty_of {sd : Side} {reason : FindingReason} {s : State} {q : List LineMsg}
    (h : Joins (cloneNotice sd reason s) s.ring q) :
    cloneParty sd reason s =
      { s with hot := uidOffered (tapUid s sd) s, ring := { s.ring with insertion := q } } := by
  have hj := joinInsertion_of h
  have hc : cloneParty sd reason s =
      modRing (joinInsertion (cloneNotice sd reason s)) (offerLocal (tapUid s sd) s) := rfl
  rw [hc, offerLocal_eq]
  simp only [modRing, hj]

/-- A clone mark taken up, after the frame of the transaction's sighting has joined. -/
theorem takeUpMark_none {sd : Side} {s : State} (h : (s.taps.get sd).record.cloneMark = none) :
    takeUpMark sd s = s := by
  unfold takeUpMark
  rw [h]

/-! ### Withdrawal and refusal of a claim (R39, R95) -/

/-- A withdrawal sets the entry back and takes the frame out of the queue. -/
theorem withdrawIntent_of {sd : Side} {given : Option Displaced} {s : State} {q : List LineMsg}
    (h : IntentLeaves s.ring.insertion (s.taps.get sd).record.intent q) :
    withdrawIntent sd given s =
      { s with sightings := tableSetBack s sd given, ring := { s.ring with insertion := q } } := by
  have hw := withdraw_of h
  have hs : (match entryOf s (tapUid s sd) with
      | some e => if ownPinned s sd e then setBackEntry (tapUid s sd) given e s else s
      | none => s) =
      { s with
        sightings :=
          match s.sightings.find? (fun e => e.sighting.uid = tapUid s sd) with
          | none => s.sightings
          | some e =>
            if ownPinned s sd e = true then
              match given.or e.displaced with
              | some d =>
                s.sightings.map (fun y =>
                  if y.sighting.uid = tapUid s sd then ⟨d.sighting, d.contested, false, none⟩ else y)
              | none => s.sightings.filter (fun y => y.sighting.uid ≠ tapUid s sd)
            else s.sightings } := by
    unfold entryOf
    cases s.sightings.find? (fun e => decide (e.sighting.uid = tapUid s sd)) with
    | none => rfl
    | some e =>
      dsimp only
      by_cases hp : ownPinned s sd e = true
      · rw [if_pos hp, if_pos hp]
        cases given with
        | some d => rfl
        | none => cases hd : e.displaced <;> simp [setBackEntry, hd, modEntry, removeEntry]
      · rw [if_neg hp, if_neg hp]
  refine (congrArg (fun c => purgeSightings (match (s.taps.get sd).record.intent with
    | some x => modRing (withdrawMsg (.sighting x)) c
    | none => c)) hs).trans ?_
  unfold purgeSightings tableSetBack liveEntries
  cases hi : (s.taps.get sd).record.intent with
  | none =>
    rw [hi] at hw
    dsimp only at hw ⊢
    rw [← hw]
    rfl
  | some x =>
    rw [hi] at hw
    dsimp only [modRing] at hw ⊢
    rw [hw]
    rfl

end Sys2Proof.Machine
end

