-- ==== Sys2Proof/Laws/Handoffs.lean ====
section
/-! SUPPORT. What the hand-offs of a transaction and of the lane do, each in the words of the rules
(Sys2Proof/Safety.lean): the release of reservations and contexts, a clone finding, an own sighting, the
clone mark, grants withdrawn, a commit, a tear, and the end of a transaction at a warm restart. A relation
of Safety holds of one next state alone, the one that the operation leaves. -/

namespace Sys2Proof.Machine

/-! ### Reservations, contexts and records (R35, R36, R76, R82) -/

/-- A side set to what it is. -/
theorem sided_self {α : Type} (p : Sided α) (sd : Side) : p.set sd (p.get sd) = p := by cases sd <;> rfl

/-- The station of a record. -/
theorem stationOf_eq (s : State) : stationOf s = (s.store.setup.map LineSetup.station).getD 0 := by
  unfold stationOf
  cases s.store.setup <;> rfl

/-- An unreserved record offered (R192). -/
theorem offerRecord_offered (r : JournalRecord) (s : State) :
    offerRecord r s = { s with journal := recordOffered r s.journal } := by
  unfold offerRecord recordOffered
  split <;> rfl

/-- The TORN record of a context that leaves (R76). -/
theorem tornRecord_eq (s : State) (c : Context) : tornRecord s c = expiryRecord s c := by
  unfold tornRecord expiryRecord stampRecord
  rw [stationOf_eq]
  obtain ⟨_, _, _, _, _, _, _, ⟨a, b⟩, _⟩ := c
  cases a <;> cases b <;> rfl

/-- A context expires: it leaves the table, and its record is offered (R76). -/
theorem expireContext_eq (c : Context) (s : State) :
    expireContext c s =
      { s with
        contexts := s.contexts.filter (fun x => x.uid ≠ c.uid)
        journal := recordOffered (expiryRecord s c) s.journal } := by
  unfold expireContext
  rw [offerRecord_offered, tornRecord_eq]
  rfl

/-- A held context is given back (R82). -/
theorem releaseContext_eq (sd : Side) (s : State) : releaseContext sd s = contextBack sd s := by
  unfold releaseContext contextBack
  cases heldContext s sd with
  | none => rfl
  | some c => simp only [expireContext_eq]; rfl

/-- The reservations are given back (R35). -/
theorem releaseReservations_eq (sd : Side) (s : State) :
    releaseReservations sd s = reservationsBack sd s := by
  have hp : s.taps.set sd (s.taps.get sd) = s.taps := sided_self _ _
  cases hg : (s.taps.get sd).record.holdsGrant <;> cases hj : (s.taps.get sd).record.holdsJournal <;>
    cases hi : (s.taps.get sd).record.holdsInsertion <;>
    simp [releaseReservations, releaseGrantSlot, releaseJournal, releaseInsertion, reservationsBack,
      hg, hj, hi, modRecord, modTap, setTap, modGate, modJournal, modRing, Sided.set_set]
  have htap :
      ({ s.taps.get sd with
        record := { (s.taps.get sd).record with
          holdsGrant := false, holdsJournal := false, holdsInsertion := false } } : Tap) =
        s.taps.get sd := by
    generalize s.taps.get sd = T at *
    obtain ⟨_, _, _, r⟩ := T
    cases r
    simp_all
  exact congrArg (fun t => { s with taps := t }) (hp.symm.trans (congrArg (s.taps.set sd) htap.symm))

/-- The record of a refusal (R36). -/
theorem refusalRecord_eq (s : State) (sd : Side) (code : RefusalCode) :
    refusalRecord s sd .refused code = refusedRecord sd code s := by
  unfold refusalRecord refusedRecord stampRecord
  rw [stationOf_eq]

/-- The record of a refusal offered, and its counters advanced (R36). -/
theorem recordRefusal_eq (sd : Side) (code : RefusalCode) (s : State) :
    recordRefusal sd .refused code s =
      { s with
        taps := s.taps.set sd
          { s.taps.get sd with record := { (s.taps.get sd).record with refusal := some code } }
        journal :=
          { recordOffered (refusedRecord sd code s) s.journal with
            counters :=
              countRefusal code (recordOffered (refusedRecord sd code s) s.journal).counters } } := by
  unfold recordRefusal
  rw [offerRecord_offered, refusalRecord_eq]
  rfl

/-- Giving a context back changes the Recovery Table and the Journal Queue alone. -/
theorem contextBack_frame (sd : Side) (s : State) :
    contextBack sd s =
      { s with contexts := (contextBack sd s).contexts, journal := (contextBack sd s).journal } := by
  unfold contextBack
  split
  · rfl
  · split <;> rfl

/-- The refusal sequence of CLONE_SUSPECT, with no reservation left (R36, R39). -/
theorem refuse_cloneSuspect {sd : Side} {s : State} (h : reservationsBack sd s = s) :
    refuse sd .cloneSuspect s = contextBack sd (cloneSuspect sd s) := by
  unfold refuse refuseSequence
  rw [releaseReservations_eq, h, releaseContext_eq, recordRefusal_eq]
  unfold contextBack heldContext askHalt sendCommand startStop cloneSuspect
  dsimp only [modGate]
  cases s.contexts.find? (fun c => decide (c.holder = some sd)) with
  | none => cases sd <;> rfl
  | some c =>
    obtain ⟨u, side, cls, base, tg, ji, hi, cf, fa, ba, fl, cr, dl, ho, overdue⟩ := c
    cases overdue <;> cases sd <;> rfl

/-! ### A clone finding (R39, R99, R100) -/

/-- A joining has one outcome. -/
theorem joins_unique {m : LineMsg} {r : Ring} {p q : List LineMsg} (hp : Joins m r p) (hq : Joins m r q) :
    p = q :=
  congrArg Ring.insertion ((joinInsertion_of hp).symm.trans (joinInsertion_of hq))

/-- A frame joined is the queue that the rule gives. -/
theorem modRing_join {m : LineMsg} {s : State} {q : List LineMsg} (h : Joins m s.ring q) :
    modRing (joinInsertion m) s = { s with ring := { s.ring with insertion := q } } :=
  congrArg (fun r => { s with ring := r }) (joinInsertion_of h)

/-- A withdrawal leaves one queue. -/
theorem intentLeaves_unique {q p₁ p₂ : List LineMsg} {i : Option Sighting} (h₁ : IntentLeaves q i p₁)
    (h₂ : IntentLeaves q i p₂) : p₁ = p₂ := by
  have e₁ := withdraw_of (r := { State.reset.ring with insertion := q }) h₁
  have e₂ := withdraw_of (r := { State.reset.ring with insertion := q }) h₂
  exact congrArg Ring.insertion (e₁.symm.trans e₂)

/-- A clone finding in CLAIMING leaves what the rules give, for every queue that they give. -/
theorem refuseClone_of {sd : Side} {reason : FindingReason} {d : Displaced} {v : State}
    {left joined : List LineMsg} (hl : IntentLeaves v.ring.insertion (v.taps.get sd).record.intent left)
    (hj : Joins (cloneNotice sd reason v) { (reservationsBack sd v).ring with insertion := left } joined) :
    refuseClone sd reason (some d) v =
      contextBack sd
        (cloneSuspect sd
          { reservationsBack sd v with
            sightings := tableSetBack v sd (some d)
            ring := { (reservationsBack sd v).ring with insertion := joined }
            hot := uidOffered (tapUid v sd) v }) := by
  generalize hv : modTap sd (fun t => { t with hold := none }) v = w
  have hw : withdrawIntent sd (some d) w =
      { w with sightings := tableSetBack v sd (some d), ring := { v.ring with insertion := left } } := by
    subst hv
    rw [withdrawIntent_of (q := left) (by cases sd <;> exact hl)]
    cases sd <;> rfl
  generalize hJ : reservationsBack sd
    { w with sightings := tableSetBack v sd (some d), ring := { v.ring with insertion := left } } = j
  have hr : j.ring = { (reservationsBack sd v).ring with insertion := left } := by
    subst hJ hv
    cases hi : (v.taps.get sd).record.holdsInsertion <;> simp [reservationsBack, modTap, setTap, hi]
  have hn : cloneNotice sd reason j = cloneNotice sd reason v := by
    subst hJ hv
    have : (reservationsBack sd v).ring.gateNo = v.ring.gateNo := by
      unfold reservationsBack; dsimp only; split <;> rfl
    cases hi : (v.taps.get sd).record.holdsInsertion <;> cases sd <;>
      simp [cloneNotice, reservationsBack, modTap, setTap, hi, tapUid, checkedTc]
  have hu : uidOffered (tapUid j sd) j = uidOffered (tapUid v sd) v := by
    subst hJ hv; cases sd <;> rfl
  have hp : cloneParty sd reason j =
      { j with hot := uidOffered (tapUid v sd) v, ring := { j.ring with insertion := joined } } := by
    rw [cloneParty_of (q := joined) (by rw [hn, hr]; exact hj), hu]
  unfold refuseClone
  dsimp only
  rw [hv, hw, releaseReservations_eq, hJ, hp, refuse_cloneSuspect
    (by subst hJ; cases sd <;> rfl), hr]
  have : cloneSuspect sd
        { j with
          hot := uidOffered (tapUid v sd) v
          ring := { { (reservationsBack sd v).ring with insertion := left } with insertion := joined } } =
      cloneSuspect sd
        { reservationsBack sd v with
          sightings := tableSetBack v sd (some d)
          ring := { (reservationsBack sd v).ring with insertion := joined }
          hot := uidOffered (tapUid v sd) v } := by
    subst hJ hv
    cases sd <;> rfl
  rw [this]

/-- A clone finding in CLAIMING does what R39 says, and nothing else. -/
theorem cloneRefused_iff {sd : Side} {reason : FindingReason} {d : Displaced} {v u : State} :
    CloneRefused sd reason d v u ↔ u = refuseClone sd reason (some d) v := by
  constructor
  · rintro ⟨left, joined, hl, hj, rfl⟩
    exact (refuseClone_of hl hj).symm
  · rintro rfl
    obtain ⟨left, hl⟩ := intentLeaves_total v.ring.insertion (v.taps.get sd).record.intent
    have hj := joins_joinInsertion (cloneNotice sd reason v)
      { (reservationsBack sd v).ring with insertion := left }
    exact ⟨left, _, hl, hj, refuseClone_of hl hj⟩

/-- A finding in CLAIMING refuses (R39). -/
theorem takeFinding_claiming {sd : Side} {reason : FindingReason} {x : Sighting} {s : State}
    (h : tapIn s sd .claiming = true) :
    takeFinding sd reason x s = refuseClone sd reason (some ⟨x, decide (x.kind = .intent)⟩) s := by
  unfold takeFinding
  rw [if_pos h]
  simp [findingEntry]

/-- A finding after CLAIMING marks (R42, R100). -/
theorem takeFinding_marked {sd : Side} {reason : FindingReason} {x : Sighting} {s : State}
    (h : (s.taps.get sd).state ≠ .claiming) :
    takeFinding sd reason x s = { s with taps := s.taps.set sd (marked reason (s.taps.get sd)) } := by
  unfold takeFinding
  rw [if_neg (by simp [tapIn, h])]
  simp only [modRecord, modTap, setTap, marked]
  cases (s.taps.get sd).record.cloneMark <;> rfl

/-- A transaction in flight has not asked HALT. -/
theorem inFlight_live {s : State} {sd : Side} {u : Uid} (h : inFlight s sd u = true) :
    (s.taps.get sd).ending = false := by
  unfold inFlight tapIn at h
  cases he : (s.taps.get sd).ending <;> simp_all

/-- The judging of one side does what R99 and R100 say, and nothing else. -/
theorem sideJudged_iff {sd : Side} {x : Sighting} {rule : Option FindingReason} {v u : State} :
    SideJudged sd x rule v u ↔ u = judgeSide sd x rule v := by
  have key : judgeSide sd x rule v =
      if inFlight v sd x.uid then
        match findingAgainst v sd x rule with
        | some reason => takeFinding sd reason x v
        | none => v
      else v := by
    unfold judgeSide findingAgainst ownSource
    cases cloneCheck (checkedTc v sd) ⟨v.ring.gateNo, sd⟩ x <;> rfl
  rw [key]
  unfold SideJudged
  cases hi : inFlight v sd x.uid with
  | false => rfl
  | true =>
    cases findingAgainst v sd x rule with
    | none => rfl
    | some reason =>
      by_cases hc : (v.taps.get sd).state = .claiming
      · have ht : tapIn v sd .claiming = true := by simp [tapIn, hc, inFlight_live hi]
        simp only [hc, if_true, takeFinding_claiming ht, cloneRefused_iff]
      · simp only [hc, if_false, if_true, takeFinding_marked hc]

/-! ### Own sightings and clone marks (R42, R96, R101) -/

/-- A side with no transaction in flight for the UID is not judged. -/
theorem judgeSide_idle {sd : Side} {x : Sighting} {rule : Option FindingReason} {s : State}
    (h : inFlight s sd x.uid = false) : judgeSide sd x rule s = s := by
  unfold judgeSide
  rw [h]
  rfl

/-- A bystander's clone action (R101). -/
theorem bystander_eq (x : Sighting) (rule : Option FindingReason) (s : State) :
    bystander x.uid rule (anyInFlight s x.uid) s = bystanding x rule s := by
  unfold bystander bystanding anyInFlight
  rw [offerLocal_eq]
  cases rule <;> cases inFlight s .a x.uid <;> cases inFlight s .b x.uid <;> rfl

/-- Where a transaction of this gate is in flight for the UID there is no bystander. -/
theorem bystanding_busy {x : Sighting} {rule : Option FindingReason} {s : State}
    (h : anyInFlight s x.uid = true) : bystanding x rule s = s := by
  unfold bystanding
  unfold anyInFlight at h
  rw [if_neg]
  intro hn
  simp [hn.2.1, hn.2.2] at h

/-- A bystander's clone action leaves what is in flight. -/
theorem bystanding_inFlight (x : Sighting) (rule : Option FindingReason) (s : State) (sd : Side) (u : Uid) :
    inFlight (bystanding x rule s) sd u = inFlight s sd u := by
  unfold bystanding
  split <;> rfl

/-- A bystander's action may stand before the judging or behind it. -/
theorem bystander_judge {sd : Side} {x : Sighting} {rule : Option FindingReason} {s : State} :
    bystander x.uid rule (anyInFlight s x.uid) (judgeSide sd x rule s) =
      judgeSide sd x rule (bystanding x rule s) := by
  cases hb : anyInFlight s x.uid with
  | true =>
    rw [bystanding_busy hb]
    simp [bystander]
  | false =>
    have hi : inFlight s sd x.uid = false := by
      unfold anyInFlight at hb
      cases sd <;> simp_all
    rw [judgeSide_idle hi, judgeSide_idle (by rw [bystanding_inFlight]; exact hi), ← bystander_eq, hb]

/-- An own sighting leaves what the rules give, for the table and queue that they give. -/
theorem ownSighting_of {sd : Side} {x : Sighting} {s : State} {table : List SightEntry}
    {rule : Option FindingReason} {queue : List LineMsg} (hx : x.kind ≠ .intent)
    (ht : TableTakes (MeetsOwn x) x (liveEntries s s.sightings) table rule)
    (hj : Joins (.sighting x) s.ring queue) :
    ownSighting sd x s =
      judgeSide sd.other x rule
        (bystanding x rule { s with sightings := table, ring := { s.ring with insertion := queue } }) := by
  have ht' : TableTakes (MeetsOwn x) x (purgeSightings s).sightings table rule := ht
  unfold ownSighting
  dsimp only
  rw [applySighting_of (fun e e' r h => ownOn_of hx h) ht']
  dsimp only
  rw [modRing_join (s := { purgeSightings s with sightings := table }) (q := queue) hj]
  exact bystander_judge
    (s := { s with sightings := table, ring := { s.ring with insertion := queue } })

/-- An own COMMIT, TORN or UNUSED does what R96 to R101 say, and nothing else. -/
theorem ownTaken_iff {sd : Side} {x : Sighting} {v u : State} (hx : x.kind ≠ .intent) :
    OwnTaken sd x v u ↔ u = ownSighting sd x v := by
  constructor
  · rintro ⟨table, rule, queue, ht, hj, h⟩
    rw [ownSighting_of hx ht hj]
    exact sideJudged_iff.mp h
  · rintro rfl
    have ht := (takes_applySighting (s := purgeSightings v) (fun _ _ _ h => ownOn_of hx h)
      (meetsOwn_ownOn hx)).1
    have hj := joins_joinInsertion (.sighting x) v.ring
    exact ⟨_, _, _, ht, hj, sideJudged_iff.mpr (ownSighting_of hx ht hj)⟩

/-- The clone mark is taken up (R42). -/
theorem markTaken_iff {sd : Side} {v u : State} : MarkTaken sd v u ↔ u = takeUpMark sd v := by
  unfold MarkTaken takeUpMark
  cases (v.taps.get sd).record.cloneMark with
  | none => rfl
  | some reason =>
    constructor
    · rintro ⟨queue, hj, rfl⟩
      exact (cloneParty_of hj).symm
    · rintro rfl
      have hj := joins_joinInsertion (cloneNotice sd reason v) v.ring
      exact ⟨_, hj, cloneParty_of hj⟩

/-! ### Grants withdrawn -/

/-- The UNUSED record of a grant offered and counted (R135). -/
theorem unusedRecord_offered (emergency : Bool) (s : State) (g : Grant) :
    modCounters (fun c => { c with unused := advance32 c.unused })
        (offerRecord (unusedRecord s emergency g) s) =
      { s with journal := unusedOffered s emergency s.journal g } := by
  rw [offerRecord_offered]
  unfold unusedRecord stampRecord
  rw [stationOf_eq]
  rfl

/-- One grant withdrawn unused (R135). -/
theorem giveUpGrant_iff {emergency : Bool} {v w : State} {g : Grant} :
    OwnTaken g.side (makeSighting v g.side g.uid .unused g.tc g.tc)
        { v with journal := unusedOffered v emergency v.journal g } w ↔
      w = giveUpGrant emergency v g := by
  rw [ownTaken_iff (by simp [makeSighting])]
  unfold giveUpGrant
  rw [unusedRecord_offered]

/-- Grants withdrawn in their order (R126, R135). -/
theorem grantsWithdrawn_iff {emergency : Bool} {grants : List Grant} {v u : State} :
    GrantsWithdrawn emergency v grants u ↔ u = grants.foldl (giveUpGrant emergency) v := by
  induction grants generalizing v with
  | nil =>
    constructor
    · rintro ⟨⟩; rfl
    · rintro rfl; exact .none _
  | cons g rest ih =>
    constructor
    · rintro (_ | ⟨_, _, _, w, _, hw, hr⟩)
      rw [List.foldl_cons, ← giveUpGrant_iff.mp hw]
      exact ih.mp hr
    · rintro rfl
      exact .next _ g rest _ _ (giveUpGrant_iff.mpr rfl) (ih.mpr rfl)

/-- A lane in OUT_OF_SERVICE or FREE is shut with its grants withdrawn (R126, R139). -/
theorem laneEmptied_iff {v u : State} (h : laneShut v) :
    LaneEmptied v v.gate.queue u ↔ u = deriveGate v := by
  have hd : deriveGate v = shutLane (decide (gateState v = .free)) v := by
    unfold deriveGate
    rcases h with h | h <;> rw [h] <;> rfl
  have ha : ∀ a, dropAlarm a = if a = some .forced then some .forced else none := by
    intro a
    rcases a with _ | k
    · rfl
    · cases k <;> rfl
  rw [hd]
  unfold LaneEmptied shutLane withdrawAll
  simp only [grantsWithdrawn_iff, exists_eq_left]
  simp only [modGate, ha]

/-- A gate that is open for taps keeps its lane. -/
theorem deriveGate_open {v : State} (h : ¬ laneShut v) : deriveGate v = v := by
  unfold laneShut at h
  unfold deriveGate
  split <;> simp_all

/-- The gate state of a shut lane does not depend on its grants. -/
theorem gateState_shut {v : State} (h : laneShut v) (f : Gate → Gate)
    (hf : ∀ g, (f g).freeFlag = g.freeFlag) :
    gateState { v with gate := f v.gate } = gateState v := by
  have ho : outOfService { v with gate := f v.gate } = outOfService v := rfl
  have hk : (v.emerg || v.gate.freeFlag) = true ∨ outOfService v = true := by
    unfold laneShut gateState at h
    cases h₁ : (v.emerg || v.gate.freeFlag) with
    | true => exact .inl rfl
    | false =>
      cases h₂ : outOfService v with
      | true => exact .inr rfl
      | false =>
        rw [h₁, h₂] at h
        exfalso
        revert h
        cases v.gate.alarm with
        | some k => simp
        | none =>
          cases v.gate.queue with
          | nil => simp
          | cons g rest => cases hg : g.entered <;> simp [hg]
  unfold gateState
  rw [ho]
  dsimp only
  rw [hf]
  rcases hk with hk | hk
  · rw [if_pos hk, if_pos hk]
  · rw [hk, if_pos rfl, if_pos rfl]

/-- A lane shut with the grants given (R126, R139). -/
theorem laneEmptied_grants {v u : State} {grants : List Grant} (h : laneShut v) :
    LaneEmptied v grants u ↔ u = deriveGate { v with gate := { v.gate with queue := grants } } := by
  have hs := gateState_shut h (fun g => { g with queue := grants }) (fun _ => rfl)
  have hl : laneShut { v with gate := { v.gate with queue := grants } } := by
    unfold laneShut at h ⊢; rw [hs]; exact h
  rw [← laneEmptied_iff hl]
  unfold LaneEmptied
  rw [hs]

/-! ### What the judging of a sighting leaves alone -/

/-- What the judging of one side leaves: the queue of grants, the other side, and no more reservations. -/
structure JudgedKeeps (sd : Side) (s u : State) : Prop where
  queue : u.gate.queue = s.gate.queue
  reserved : u.gate.reserved ≤ s.gate.reserved
  chan : u.chans.get sd.other = s.chans.get sd.other
  tap : u.taps.get sd.other = s.taps.get sd.other
  gateState : gateState u = gateState s
  store : u.store = s.store
  passTimer : u.gate.passTimer = s.gate.passTimer

/-- The judging of a side keeps the other side and the lane. -/
theorem judgeSide_keeps (sd : Side) (x : Sighting) (rule : Option FindingReason) (s : State) :
    JudgedKeeps sd s (judgeSide sd x rule s) := by
  have hf : ∀ reason, JudgedKeeps sd s (takeFinding sd reason x s) := by
    intro reason
    by_cases hc : tapIn s sd .claiming = true
    · rw [takeFinding_claiming hc]
      obtain ⟨left, joined, _, _, hu⟩ := cloneRefused_iff.mpr
        (rfl : refuseClone sd reason (some ⟨x, decide (x.kind = .intent)⟩) s = _)
      rw [hu, contextBack_frame]
      cases hg : (s.taps.get sd).record.holdsGrant <;>
        cases hi : (s.taps.get sd).record.holdsInsertion <;>
        refine ⟨?_, ?_, ?_, ?_, ?_, ?_, ?_⟩ <;>
        simp [cloneSuspect, reservationsBack, hg, hi, Sided.set_set] <;> rfl
    · unfold takeFinding
      rw [if_neg hc]
      refine ⟨rfl, Nat.le_refl _, rfl, ?_, rfl, rfl, rfl⟩
      simp [modRecord, modTap, setTap]
  have hs : JudgedKeeps sd s s := ⟨rfl, Nat.le_refl _, rfl, rfl, rfl, rfl, rfl⟩
  unfold judgeSide
  split
  · split
    · exact hf _
    · split
      · exact hf _
      · exact hs
  · exact hs

/-- An own sighting keeps its own side and the lane. -/
theorem ownSighting_keeps (sd : Side) {x : Sighting} (hx : x.kind ≠ .intent) (s : State) :
    JudgedKeeps sd.other s (ownSighting sd x s) := by
  obtain ⟨table, rule, queue, _, _, h⟩ := (ownTaken_iff (sd := sd) (v := s) hx).mpr rfl
  rw [sideJudged_iff] at h
  rw [h]
  have hk := judgeSide_keeps sd.other x rule
    (bystanding x rule { s with sightings := table, ring := { s.ring with insertion := queue } })
  have hb : ∀ z : State, ∃ hot, bystanding x rule z = { z with hot := hot } := by
    intro z; unfold bystanding; split
    · exact ⟨_, rfl⟩
    · exact ⟨z.hot, rfl⟩
  obtain ⟨hot, hb⟩ := hb { s with sightings := table, ring := { s.ring with insertion := queue } }
  rw [hb] at hk ⊢
  exact ⟨hk.queue, hk.reserved, hk.chan, hk.tap, hk.gateState, hk.store, hk.passTimer⟩

/-! ### Commit (R42 to R45, R129) -/

/-- The record of a commit (R43, R190). -/
theorem commitRecord_eq (m : State) (sd : Side) (d : Decision) :
    { commitRecord m sd d with sequence := m.journal.nextSequence } = acceptRecord sd d m := by
  unfold commitRecord acceptRecord stampRecord
  rw [stationOf_eq]
  have : commitsExit sd d = decide (sd = .b ∧ (d.accept = .exit ∨ d.accept = .recovered)) := by
    unfold commitsExit; cases sd <;> cases d.accept <;> rfl
  rw [this]
  cases d.accept <;> rfl

/-- The counters of a commit (R195). -/
theorem countCommit_eq (d : Decision) (c : Counters) : countCommit d c = acceptCounters d c := by
  unfold countCommit acceptCounters
  cases d.accept <;> rfl

/-- The grant of a commit handed over, at the place that its reservation holds (R129). -/
theorem handOverGrant_eq {g : Grant} {v w : State} (hr : v.gate.queue.length + (v.gate.reserved - 1) < 2) :
    ((¬ laneShut v →
      w =
        { v with
          gate :=
            { v.gate with
              reserved := v.gate.reserved - 1
              queue := v.gate.queue ++ [g]
              passTimer := if gateState v = .closed then fullWindow v else v.gate.passTimer } }) ∧
    (laneShut v →
      LaneEmptied { v with gate := { v.gate with reserved := v.gate.reserved - 1 } }
        (v.gate.queue ++ [g]) w)) ↔ w = handOverGrant g v := by
  generalize hz : ({ v with
      gate := { v.gate with
        reserved := v.gate.reserved - 1, queue := v.gate.queue ++ [g] } } : State) = z
  have hq : handOverGrant g v = deriveGate (if gateState v = .closed then startPassTimer z else z) := by
    unfold handOverGrant
    dsimp only [modGate]
    rw [if_pos hr, ← hz]
  rw [hq]
  by_cases hs : laneShut v
  · have hn : gateState v ≠ .closed := by
      unfold laneShut at hs
      rcases hs with h | h <;> rw [h] <;> simp
    have hs1 := gateState_shut hs (fun g => { g with reserved := g.reserved - 1 }) (fun _ => rfl)
    have hl : laneShut { v with gate := { v.gate with reserved := v.gate.reserved - 1 } } := by
      unfold laneShut at hs ⊢; rw [hs1]; exact hs
    rw [if_neg hn, if_neg hn, ← hz]
    have hk := laneEmptied_grants (u := w) (grants := v.gate.queue ++ [g]) hl
    exact ⟨fun h => hk.mp (h.2 hs), fun h => ⟨fun hn => absurd hs hn, fun _ => hk.mpr h⟩⟩
  · have hopen : ∀ p, ¬ laneShut { z with gate := { z.gate with passTimer := p } } := by
      intro p hl
      apply hs
      have hg := gateState_shut hl
        (fun gt => { gt with
          reserved := v.gate.reserved, queue := v.gate.queue, passTimer := v.gate.passTimer })
        (fun _ => rfl)
      subst hz
      unfold laneShut at hl ⊢
      rw [← hg] at hl
      exact hl
    have hd := fun p => deriveGate_open (hopen p)
    have ht : startPassTimer z = { z with gate := { z.gate with passTimer := fullWindow v } } := by
      subst hz
      unfold startPassTimer fullWindow
      dsimp only
      cases v.store.params <;> rfl
    have hk : deriveGate (if gateState v = .closed then startPassTimer z else z) =
        { z with
          gate := { z.gate with
            passTimer := if gateState v = .closed then fullWindow v else v.gate.passTimer } } := by
      by_cases hc : gateState v = .closed
      · rw [if_pos hc, if_pos hc, ht, hd]
      · rw [if_neg hc, if_neg hc]
        have h0 := hd v.gate.passTimer
        subst hz
        exact h0
    rw [hk, ← hz]
    exact ⟨fun h => h.1 hs, fun h => ⟨fun _ => h, fun hl => absurd hl hs⟩⟩

/-- What follows a commit at a channel whose lost mark is clear. -/
theorem afterCommit_eq {sd : Side} {d : Decision} {z : State} (hl : (z.chans.get sd).lost = false) :
    afterCommit sd d z = afterAccept sd d z := by
  unfold afterCommit afterAccept
  have : commitsExit sd d = true ↔ sd = .b ∧ (d.accept = .exit ∨ d.accept = .recovered) := by
    unfold commitsExit; cases sd <;> cases d.accept <;> simp
  by_cases h : commitsExit sd d = true
  · rw [if_pos h, if_pos (this.mp h)]
    unfold ask
    rw [if_neg (by simpa [setTapState, modTap, setTap] using hl)]
    rfl
  · rw [if_neg h, if_neg (fun hh => h (this.mpr hh))]
    rfl

/-- The lost mark of a channel is no concern of a sighting's judging. -/
theorem judgeSide_lost (sd y : Side) (x : Sighting) (rule : Option FindingReason) (s : State) :
    ((judgeSide sd x rule s).chans.get y).lost = (s.chans.get y).lost := by
  have hf : ∀ reason, ((takeFinding sd reason x s).chans.get y).lost = (s.chans.get y).lost := by
    intro reason
    by_cases hc : tapIn s sd .claiming = true
    · rw [takeFinding_claiming hc]
      obtain ⟨left, joined, _, _, hu⟩ := cloneRefused_iff.mpr
        (rfl : refuseClone sd reason (some ⟨x, decide (x.kind = .intent)⟩) s = _)
      rw [hu, contextBack_frame]
      cases sd <;> cases y <;> rfl
    · unfold takeFinding
      rw [if_neg hc]
      rfl
  unfold judgeSide
  split
  · split
    · exact hf _
    · split
      · exact hf _
      · rfl
  · rfl

/-- The lost mark of a channel is no concern of an own sighting. -/
theorem ownSighting_lost {sd : Side} (y : Side) {x : Sighting} (hx : x.kind ≠ .intent) (s : State) :
    ((ownSighting sd x s).chans.get y).lost = (s.chans.get y).lost := by
  obtain ⟨table, rule, queue, _, _, h⟩ := (ownTaken_iff (sd := sd) (v := s) hx).mpr rfl
  rw [sideJudged_iff] at h
  rw [h, judgeSide_lost]
  unfold bystanding
  split <;> rfl

/-- The lost mark of a channel is no concern of a withdrawal. -/
theorem withdrawn_lost (y : Side) (e : Bool) (gs : List Grant) (v : State) :
    ((gs.foldl (giveUpGrant e) v).chans.get y).lost = (v.chans.get y).lost := by
  induction gs generalizing v with
  | nil => rfl
  | cons g rest ih =>
    rw [List.foldl_cons, ih]
    unfold giveUpGrant
    rw [ownSighting_lost y (by simp [makeSighting]), unusedRecord_offered]

/-- The lost mark of a channel is no concern of a grant handed over. -/
theorem handOverGrant_lost (y : Side) (g : Grant) (v : State) :
    ((handOverGrant g v).chans.get y).lost = (v.chans.get y).lost := by
  have hd : ∀ z : State, ((deriveGate z).chans.get y).lost = (z.chans.get y).lost := by
    intro z
    unfold deriveGate
    split
    · exact withdrawn_lost y _ _ _
    · exact withdrawn_lost y _ _ _
    · rfl
  unfold handOverGrant
  rw [hd]
  split
  · unfold startPassTimer; split <;> rfl
  · rfl

/-- A commit does what R42 to R45 say. -/
theorem commit_committed {sd : Side} {d : Decision} {contexts : List Context} {m : State}
    (hd : (m.taps.get sd).record.decision = some d)
    (hc : (dropHeld sd m).contexts = contexts)
    (hj : m.journal.records.length + (m.journal.reserved - 1) < 1024)
    (hg : m.gate.queue.length + (m.gate.reserved - 1) < 2) (hl : (m.chans.get sd).lost = false) :
    Committed sd d contexts m (commit sd m) := by
  generalize hy : makeSighting m sd (tapUid m sd) .commit d.baseTc d.resultTc = y
  have hx : y.kind ≠ .intent := by subst hy; simp [makeSighting]
  generalize hm : modRecord sd (fun r => { r with holdsJournal := false, holdsGrant := false }) m = spent
  have hsp : spent.journal = m.journal := by subst hm; rfl
  generalize hstored : ({ m with
      taps := m.taps.set sd
        { m.taps.get sd with
          record := { (m.taps.get sd).record with holdsGrant := false, holdsJournal := false } }
      contexts := contexts
      journal :=
        { records := m.journal.records ++ [acceptRecord sd d m]
          reserved := m.journal.reserved - 1
          nextSequence := (m.journal.nextSequence + 1) % 65536
          counters := acceptCounters d m.journal.counters } } : State) = stored
  have hr : dropHeld sd (modCounters (countCommit d) (convertRecord (commitRecord m sd d) spent)) =
      stored := by
    have hrec : convertRecord (commitRecord m sd d) spent =
        { spent with
          journal :=
            { records := m.journal.records ++ [acceptRecord sd d m]
              reserved := m.journal.reserved - 1
              nextSequence := (m.journal.nextSequence + 1) % 65536
              counters := m.journal.counters } } := by
      unfold convertRecord
      dsimp only [modJournal]
      rw [hsp, if_pos (by
        show 1 ≤ 1024 - m.journal.records.length - (m.journal.reserved - 1)
        omega)]
      unfold storeRecord
      dsimp only
      rw [commitRecord_eq]
    rw [hrec]
    subst hstored hc hm
    unfold dropHeld
    rw [show ∀ j, heldContext (modCounters (countCommit d)
      { modRecord sd (fun r => { r with holdsJournal := false, holdsGrant := false }) m with
        journal := j }) sd = heldContext m sd from fun _ => rfl]
    cases heldContext m sd <;>
      simp [modCounters, modJournal, countCommit_eq, modRecord, modTap, setTap, removeContext]
  generalize hv : ownSighting sd y stored = v
  have hk : JudgedKeeps sd.other stored v := hv ▸ ownSighting_keeps sd hx stored
  have hg' : v.gate.queue.length + (v.gate.reserved - 1) < 2 := by
    have h1 := hk.queue
    have h2 := hk.reserved
    have h3 : stored.gate = m.gate := by subst hstored; rfl
    rw [h3] at h1 h2
    rw [h1]
    omega
  generalize hw : handOverGrant (commitGrant m sd d) v = w
  have hcm : commit sd m = afterCommit sd d (takeUpMark sd w) := by
    unfold commit
    rw [hd]
    dsimp only
    unfold commitHandOffs
    dsimp only
    rw [hm, hr, hy, hv, hw]
  have hlost : ((takeUpMark sd w).chans.get sd).lost = false := by
    have hmk : ((takeUpMark sd w).chans.get sd).lost = (w.chans.get sd).lost := by
      unfold takeUpMark
      split
      · rfl
      · unfold cloneParty
        dsimp only
        rw [offerLocal_eq]
        rfl
    rw [hmk, ← hw, handOverGrant_lost, ← hv, ownSighting_lost sd hx]
    subst hstored
    exact hl
  rw [hcm, afterCommit_eq hlost]
  have hh := (handOverGrant_eq (g := commitGrant m sd d) (w := w) hg').mpr hw.symm
  unfold Committed
  dsimp only
  rw [hy, hstored]
  exact ⟨v, w, _, (ownTaken_iff hx).mpr hv.symm, hh.1, hh.2, markTaken_iff.mpr rfl, rfl⟩

/-! ### Tears (R46, R71 to R74) -/

/-- The context that a full table gives up (R72). -/
theorem earliest_of {b a : List Context} {c : Context} (hc : c.holder = none)
    (hb : ∀ x ∈ b, x.holder = none → c.deadline < x.deadline)
    (ha : ∀ x ∈ a, x.holder = none → c.deadline ≤ x.deadline) :
    earliestUnheld (b ++ c :: a) = some c := by
  have least : ∀ l : List Context, (∀ x ∈ l, x.holder = none → c.deadline ≤ x.deadline) →
      ∀ o, earliestUnheld l = some o → c.deadline ≤ o.deadline := by
    intro l
    induction l with
    | nil => intro _ o ho; cases ho
    | cons x r ih =>
      intro hl o ho
      have hr := ih (fun y hy => hl y (by simp [hy]))
      have hx := hl x (by simp)
      rw [earliestUnheld] at ho
      split at ho
      · split at ho
        · cases ho; simp_all
        · cases ho
      · rename_i q hq
        have := hr q hq
        split at ho
        · cases ho; simp_all
        · cases ho; exact this
  have head : earliestUnheld (c :: a) = some c := by
    rw [earliestUnheld]
    split
    · simp [hc]
    · rename_i q hq; simp [hc, least a ha q hq]
  induction b with
  | nil => exact head
  | cons x r ih =>
    have hi := ih (fun y hy => hb y (by simp [hy]))
    have hx := hb x (by simp)
    simp only [List.cons_append, earliestUnheld, hi]
    rw [if_neg]
    intro hh
    simp at hh
    have := hx (by simpa using hh.1)
    omega

/-- A table without a UID loses none by its removal. -/
theorem filter_self {l : List Context} {u : Uid} (h : ∀ x ∈ l, x.uid ≠ u) :
    l.filter (fun c => decide (c.uid ≠ u)) = l := by
  rw [List.filter_eq_self]; intro x hx; simpa using h x hx

/-- The context of a tear and its TORN sighting (R71 to R74). -/
theorem contexts_of {sd : Side} {s : State} {d : Decision} {target image base contexts journal}
    (hd : (s.taps.get sd).record.decision = some d) (ht : (s.taps.get sd).record.target = some target)
    (hi : (s.taps.get sd).record.journeyImage = some image)
    (hl : s.contexts.length ≤ 32)
    (h : TearContexts sd s d target image base contexts journal) :
    (match heldContext s sd with
    | some c => ownSighting c.side (tornSighting s c) (updateContext c sd s)
    | none => ownSighting sd (tornSighting s (tornContext s sd)) (createContext sd s)) =
     ownSighting sd (tornNow sd base s) { s with contexts := contexts, journal := journal } := by
  have hnew : tornContext s sd = newContext s sd d target image := by
    unfold tornContext newContext checkedTc
    simp [hd, ht, hi]
  have hsnew : tornSighting s (tornContext s sd) = tornNow sd d.baseTc s := by rw [hnew]; rfl
  have henter : ∀ Z : State, Z.contexts.length < 32 →
      enterContext (newContext s sd d target image) Z =
        { Z with contexts := Z.contexts ++ [newContext s sd d target image] } := by
    intro Z hZ; unfold enterContext; rw [if_pos hZ]
  have hroom : ∀ Z : State, Z.contexts.length < 32 → makeRoom Z = Z := by
    intro Z hZ; unfold makeRoom; rw [if_pos hZ]
  cases h with
  | replaced old hh hc =>
    rw [hh]
    simp only
    rw [hsnew]
    congr 1
    have hcu : contextOf s (newContext s sd d target image).uid = some old := hc
    have hou : old.uid = tapUid s sd := by unfold contextOf at hc; simpa using List.find?_some hc
    unfold createContext
    simp only [hnew, hcu, expireContext_eq, hou]
    have hlt : (s.contexts.filter (fun x => decide (x.uid ≠ tapUid s sd))).length < 32 := by
      have : (s.contexts.filter (fun x => decide (x.uid ≠ tapUid s sd))).length < s.contexts.length := by
        refine Nat.lt_of_le_of_ne (List.length_filter_le _ _) ?_
        intro he
        have := List.length_filter_eq_length_iff.mp he old
          (by unfold contextOf at hc; exact List.mem_of_find?_eq_some hc)
        simp [hou] at this
      omega
    rw [hroom _ hlt, henter _ hlt]
  | added hh hc hlt =>
    rw [hh]
    simp only
    rw [hsnew]
    congr 1
    have hcu : contextOf s (newContext s sd d target image).uid = none := hc
    unfold createContext
    simp only [hnew, hcu]
    rw [hroom _ hlt, henter _ hlt]
  | full b c a hh hc hq hlen hcn hb ha =>
    rw [hh]
    simp only
    rw [hsnew]
    congr 1
    have hcu : contextOf s (newContext s sd d target image).uid = none := hc
    unfold createContext
    simp only [hnew, hcu]
    have hmr : makeRoom s =
        { s with contexts := b ++ a, journal := recordOffered (expiryRecord s c) s.journal } := by
      unfold makeRoom
      rw [if_neg (by omega), hq, earliest_of hcn (fun x hx => (hb x hx).2) (fun x hx => (ha x hx).2)]
      simp only
      rw [expireContext_eq, hq, List.filter_append, List.filter_cons_of_neg (by simp),
        filter_self (fun x hx => (hb x hx).1), filter_self (fun x hx => (ha x hx).1)]
    rw [hmr, henter _ (by rw [hq] at hlen; simp at hlen ⊢; omega)]
  | updated c hh hu hs ho =>
    rw [hh]
    subst hs
    dsimp only
    have : tornSighting s c = tornNow c.side c.baseTc s := by
      unfold tornSighting tornNow makeSighting ownSource; rw [hu]
    rw [this]
    congr 1
    unfold updateContext
    dsimp only
    rw [if_neg (by rw [ho]; decide), ← hu]
    rfl
  | overdue c hh hu hs ho =>
    rw [hh]
    subst hs
    dsimp only
    have : tornSighting s c = tornNow c.side c.baseTc s := by
      unfold tornSighting tornNow makeSighting ownSource; rw [hu]
    rw [this]
    congr 1
    unfold updateContext
    dsimp only
    rw [if_pos ho, expireContext_eq, ← hu]
    try rfl


/-- An own sighting leaves the transaction of its side. -/
theorem ownSighting_tap {sd : Side} {x : Sighting} (hx : x.kind ≠ .intent) (s : State) :
    (ownSighting sd x s).taps.get sd = s.taps.get sd := by
  have := (ownSighting_keeps sd hx s).tap
  cases sd <;> exact this

/-- With no insertion reservation, the two others are all that is given back. -/
theorem releaseTwo_eq {sd : Side} {s : State} (h : (s.taps.get sd).record.holdsInsertion = false) :
    releaseGrantSlot sd (releaseJournal sd s) = reservationsBack sd s := by
  rw [← releaseReservations_eq]
  unfold releaseReservations releaseInsertion
  rw [h]
  rfl

/-- The hand-off of a tear does what R46 says. -/
theorem tearHandOff_handedOff {sd : Side} {s : State} {d : Decision} {target : SlotId} {image : List Byte}
    {base : Nat} {contexts : List Context} {journal : Journal}
    (hd : (s.taps.get sd).record.decision = some d) (ht : (s.taps.get sd).record.target = some target)
    (hi : (s.taps.get sd).record.journeyImage = some image)
    (hn : (s.taps.get sd).record.holdsInsertion = false) (hl : s.contexts.length ≤ 32)
    (h : TearContexts sd s d target image base contexts journal) :
    HandedOff sd base contexts journal s (tearHandOff sd s) := by
  have hx : (tornNow sd base s).kind ≠ .intent := by simp [tornNow]
  refine ⟨_, (ownTaken_iff hx).mpr rfl, markTaken_iff.mpr ?_⟩
  refine (congrArg (fun t => takeUpMark sd (releaseGrantSlot sd (releaseJournal sd t)))
    (contexts_of hd ht hi hl h)).trans ?_
  rw [releaseTwo_eq (by rw [ownSighting_tap hx]; exact hn)]

/-- A tear: its hand-off, STOP and HALT (R46, R47). -/
theorem tear_eq (sd : Side) (s : State) : tear sd s = tornState sd (tearHandOff sd s) := by
  unfold tear tornState
  simp [startStop, modGate, askHalt, sendCommand, modTap, setTap, modChan, setChan, windowOf, haltAsked]

/-! ### Warm restart (R48) -/

/-- The reference to a fare bank is given back (R46, R166). -/
theorem releaseBank_eq (sd : Side) (s : State) : releaseBank sd s = { s with store := bankBack sd s } := by
  unfold releaseBank bankBack
  cases (s.taps.get sd).record.bank with
  | none => rfl
  | some id =>
    dsimp only [modBank, modStore]
    congr 1

/-- The end of a transaction at a warm restart (R48). -/
theorem tapEnded_eq (sd : Side) (s : State) :
    setEngine sd none (setTap sd Tap.cold (releaseBank sd s)) = tapEnded sd s := by
  rw [releaseBank_eq]
  rfl

/-- The open record of a side is closed with HISTORY_MISSED (R193). -/
theorem closeFirst_missed {b : List JournalRecord} {r a sd} (hr : r.isOpen = true) (hs : r.side = sd)
    (hb : ∀ x ∈ b, ¬ (x.isOpen = true ∧ x.side = sd)) :
    closeFirst sd true (b ++ r :: a) =
      b ++ { r with isOpen := false, flags := { r.flags with historyMissed := true } } :: a := by
  induction b with
  | nil => simp [closeFirst, hr, hs]
  | cons x l ih =>
    have := hb x (by simp)
    have h2 : ¬ ((x.isOpen && decide (x.side = sd)) = true) := by simpa using this
    simp only [List.cons_append, closeFirst]
    rw [if_neg h2, ih (fun y hy => hb y (by simp [hy]))]

/-- Giving a context back reads no Tap Controller. -/
theorem contextBack_taps (sd : Side) (s : State) (p : Sided Tap) :
    contextBack sd { s with taps := p } = { contextBack sd s with taps := p } := by
  unfold contextBack
  rw [show heldContext { s with taps := p } sd = heldContext s sd from rfl]
  cases heldContext s sd with
  | none => rfl
  | some c =>
    dsimp only
    split <;> rfl

/-- The hand-off of a tear leaves one state. -/
theorem handedOff_unique {sd : Side} {base : Nat} {contexts : List Context} {journal : Journal}
    {s w w' : State} (h : HandedOff sd base contexts journal s w)
    (h' : HandedOff sd base contexts journal s w') : w = w' := by
  have hx : (tornNow sd base s).kind ≠ .intent := by simp [tornNow]
  obtain ⟨v, hv, hw⟩ := h
  obtain ⟨v', hv', hw'⟩ := h'
  rw [ownTaken_iff hx] at hv hv'
  rw [markTaken_iff] at hw hw'
  rw [hw, hw', hv, hv']

/-- The Journal Queue after the record of a transaction abandoned has been offered and counted (R48). -/
def lossOffered (sd : Side) (s : State) : Journal :=
  let offered := recordOffered (refusedRecord sd .cardLost s) (reservationsBack sd s).journal
  { offered with
    counters := { offered.counters with refusals := advance32 offered.counters.refusals } }

/-- A transaction abandoned, up to its Tap Controller (R48). -/
theorem abandonTap_eq (sd : Side) (s : State) :
    abandonTap sd s =
      contextBack sd
        { reservationsBack sd s with
          taps := (recordRefusal sd .refused .cardLost (reservationsBack sd s)).taps
          journal := lossOffered sd s } := by
  unfold abandonTap
  rw [releaseReservations_eq, releaseContext_eq, recordRefusal_eq]
  have : refusedRecord sd .cardLost (reservationsBack sd s) = refusedRecord sd .cardLost s := by
    have hg : (reservationsBack sd s).ring.gateNo = s.ring.gateNo := by
      unfold reservationsBack; dsimp only; split <;> rfl
    unfold refusedRecord
    dsimp only
    rw [hg]
    cases sd <;> rfl
  rw [this]
  rfl

/-- Of the Tap Controller that a warm restart ends, only the bank is read (R48). -/
theorem tapEnded_bank {sd : Side} {T p : Tap} (h : T.record.bank = p.record.bank) (y : State) :
    tapEnded sd (contextBack sd { y with taps := y.taps.set sd T }) =
      tapEnded sd (contextBack sd { y with taps := y.taps.set sd p }) := by
  rw [contextBack_taps sd y (y.taps.set sd T), contextBack_taps sd y (y.taps.set sd p)]
  unfold tapEnded bankBack
  simp only [Sided.get_set, if_true, h, Sided.set_set]

/-- A transaction abandoned at a warm restart (R48). -/
theorem tapEnded_abandon (sd : Side) (s z : State) (table : List SightEntry) (queue : List LineMsg)
    (hold : Option Nat)
    (hz : z =
      { s with
        sightings := table, ring := { s.ring with insertion := queue }
        taps := s.taps.set sd { s.taps.get sd with hold := hold } }) :
    tapEnded sd (abandonTap sd z) = abandonedState sd table queue s := by
  have hl : lossOffered sd z = lossOffered sd s := by subst hz; cases sd <;> rfl
  rw [abandonTap_eq, hl]
  have hb : { reservationsBack sd z with taps := (reservationsBack sd s).taps } =
      { reservationsBack sd s with
        sightings := table
        ring := { (reservationsBack sd s).ring with insertion := queue } } := by
    subst hz
    cases hi : (s.taps.get sd).record.holdsInsertion <;> cases sd <;>
      simp_all [reservationsBack] <;> rfl
  have ha : abandonedState sd table queue s =
      tapEnded sd (contextBack sd
        { reservationsBack sd z with
          taps := (reservationsBack sd s).taps, journal := lossOffered sd s }) :=
    congrArg (fun y : State => tapEnded sd (contextBack sd { y with journal := lossOffered sd s })) hb.symm
  rw [ha]
  have h1 : (recordRefusal sd .refused .cardLost (reservationsBack sd z)).taps =
      (reservationsBack sd z).taps.set sd
        ((recordRefusal sd .refused .cardLost (reservationsBack sd z)).taps.get sd) := by
    rw [recordRefusal_eq]; simp
  have h2 : (reservationsBack sd s).taps =
      (reservationsBack sd z).taps.set sd ((reservationsBack sd s).taps.get sd) := by
    subst hz; cases sd <;> rfl
  rw [h1, h2]
  refine tapEnded_bank ?_ { reservationsBack sd z with journal := lossOffered sd s }
  rw [recordRefusal_eq]
  subst hz
  cases sd <;> rfl

/-- What a warm restart leaves of a transaction is what R48 says. -/
theorem restarts_restartTap {sd : Side} {s u : State} (h : Restarts sd s u) : restartTap sd s = u := by
  unfold restartTap
  rw [tapEnded_eq]
  cases h with
  | ended h =>
    congr 1
    unfold restartTransaction
    rcases h with h | h | ⟨h, h2⟩
    · rw [if_pos h]
    · split
      · rfl
      · rw [h]
    · split
      · rfl
      · rw [h]
        have : blocking s sd = true := by
          simpa [blocking, Option.isSome_iff_ne_none] using h2
        dsimp only
        rw [if_pos this]
  | abandoned he hst =>
    have : restartTransaction sd s = abandonTap sd s := by
      unfold restartTransaction
      rw [if_neg (by simp [he])]
      simp only [List.mem_cons, List.not_mem_nil, or_false] at hst
      rcases hst with h | h | h | h | h <;> rw [h]
    rw [this]
    exact tapEnded_abandon sd s s _ _ (s.taps.get sd).hold (by
      cases sd <;> rfl)
  | claiming queue he hst hq =>
    have : restartTransaction sd s =
        abandonTap sd (withdrawIntent sd none (modTap sd (fun t => { t with hold := none }) s)) := by
      unfold restartTransaction
      rw [if_neg (by simp [he]), hst]
    rw [this]
    rw [withdrawIntent_of (given := none) (s := modTap sd (fun t => { t with hold := none }) s)
      (q := queue) (by cases sd <;> exact hq)]
    have htb : tableSetBack (modTap sd (fun t => { t with hold := none }) s) sd none =
        tableSetBack s sd none := by cases sd <;> rfl
    rw [htb]
    exact tapEnded_abandon sd s _ _ _ none rfl
  | torn d target image base contexts journal w he hst hd htg hi hn hl hc hw =>
    have : restartTransaction sd s = tearHandOff sd s := by
      unfold restartTransaction
      rw [if_neg (by simp [he])]
      simp only [List.mem_cons, List.not_mem_nil, or_false] at hst
      rcases hst with h | h <;> rw [h]
    rw [this, handedOff_unique hw (tearHandOff_handedOff hd htg hi hn hl hc)]
  | finished before r after he hst hr hrec h1 h2 h3 =>
    have : restartTransaction sd s = closeRecord sd true s := by
      unfold restartTransaction
      rw [if_neg (by simp [he]), hst]
      have : blocking s sd = false := by simp [blocking, hr]
      dsimp only
      rw [if_neg (by simp [this])]
    rw [this]
    unfold closeRecord modJournal
    dsimp only
    rw [hrec, closeFirst_missed h1 h2 h3]

/-- Giving a context back leaves the Gate Controller. -/
theorem contextBack_gate (sd : Side) (s : State) : (contextBack sd s).gate = s.gate := by
  rw [contextBack_frame]

/-- A clone mark taken up leaves the Gate Controller. -/
theorem takeUpMark_gate (sd : Side) (s : State) : (takeUpMark sd s).gate = s.gate := by
  unfold takeUpMark
  split
  · rfl
  · unfold cloneParty; dsimp only; rw [offerLocal_eq]; rfl

/-- The end of a transaction leaves the queue of grants. -/
theorem restarts_queue {sd : Side} {s u : State} (h : Restarts sd s u) : u.gate.queue = s.gate.queue := by
  have hab : ∀ table queue, (abandonedState sd table queue s).gate.queue = s.gate.queue := by
    intro table queue
    unfold abandonedState tapEnded
    dsimp only
    rw [contextBack_gate]
    unfold reservationsBack
    dsimp only
    split <;> rfl
  cases h with
  | ended => rfl
  | abandoned => exact hab _ _
  | claiming => exact hab _ _
  | torn d target image base contexts journal w he hst hd htg hi hn hl hc hw =>
    have hx : (tornNow sd base s).kind ≠ .intent := by simp [tornNow]
    obtain ⟨v, hv, hm⟩ := hw
    rw [markTaken_iff] at hm
    rw [ownTaken_iff hx] at hv
    have := (ownSighting_keeps sd hx { s with contexts := contexts, journal := journal }).queue
    rw [← hv] at this
    show w.gate.queue = _
    rw [hm, takeUpMark_gate, ← this]
    unfold reservationsBack
    dsimp only
    split <;> rfl
  | finished => rfl

end Sys2Proof.Machine
end

