-- ==== Sys2Proof/WellFormed.lean ====
section
/-! DEFINITION. Well-formed commands: the operand of a command is one that the event of its row can
carry. A frame of a ring command is good (R146) and of the kind, the sender and the request that the row
names (R151, R203); a dropped frame is not good (R146). `exec` judges every operand again for itself, so
no meaning rests on these checks. -/

namespace Sys2Proof

open Sys2Proof.Machine

/-- A frame is good and of a kind. -/
def goodOfKind (kind : Nat) (f : RingFrame) : Bool := frameGood f && decide (f.kind.toNat = kind)

/-- A frame is a management request of the concentrator (R151). -/
def requestFrame (f : RingFrame) : Bool := goodOfKind kindRequest f && decide (frameGate f = 0)

/-- A frame is a request of one code (R203, R207). -/
def requestOfCode (r : Request) (f : RingFrame) : Bool :=
  requestFrame f && decide (requestOf (numOf f.payload 1 1) = some r)

/-- A frame is a GATE request whose action passes a test, or one of a bad length (R141, R198). -/
def gateRequest (admits : Nat → Bool) (f : RingFrame) : Bool :=
  requestOfCode .gate f && (!requestLengthGood .gate f.payload || admits (numOf f.payload 6 6))

/-- The data of an air answer is no longer than a block (R9). -/
def answerSized : AirReport → Bool
  | .good (.data bytes) => decide (bytes.length ≤ 16)
  | _ => true

/-- The operand of a command is one that its event can carry. -/
def Instr.wellFormed : Instr → Bool
  | .pollTimerExpiry _ => true
  | .airAnswerArrival _ report => answerSized report
  | .answerTimerExpiry _ => true
  | .fieldEmptyTimeout _ => true
  | .exchangeEnded _ => true
  | .hotlistLookup _ => true
  | .fareBankRead _ => true
  | .codeEngineDone _ _ => true
  | .claimHoldExpiry _ => true
  | .sightingArrival f => goodOfKind kindSighting f
  | .cloneNoticeArrival f => goodOfKind kindNotice f
  | .localHotlistAddition _ => true
  | .mergeStep => true
  | .loaderWrite => true
  | .loaderRead => true
  | .enter _ => true
  | .passed _ => true
  | .clear => true
  | .forced => true
  | .occupiedLong => true
  | .passTimerExpiry => true
  | .stopTimerExpiry _ => true
  | .emergAsserted => true
  | .emergReleased => true
  | .beacon f => goodOfKind kindBeacon f && decide (frameGate f = 0) && decide (frameDest f = 31)
  | .beaconWatchExpiry => true
  | .lineTimeAdvance => true
  | .frameStripped f => frameGood f && decide (frameGate f ≠ 0)
  | .frameDropped bytes => !goodBytes bytes
  | .frameForwarded f => frameGood f
  | .ringOutFrameEnd => true
  | .sentEntryAgeing => true
  | .answerQueueFullDrop f => requestFrame f
  | .describe f => requestOfCode .describe f
  | .status f => requestOfCode .status f
  | .counters f => requestOfCode .counters f
  | .countersClear f _ => requestOfCode .countersClear f
  | .setup f _ => requestOfCode .setup f
  | .gateFreeOn f _ => gateRequest (fun a => decide (a = 1)) f
  | .gateFreeOff f _ => gateRequest (fun a => decide (a = 2)) f
  | .gateAlarmRelease f _ => gateRequest (fun a => decide (a = 3)) f
  | .restart f _ => requestOfCode .restart f
  | .loadBegin f _ => requestOfCode .loadBegin f
  | .loadData f _ => requestOfCode .loadData f
  | .loadEnd f _ => requestOfCode .loadEnd f
  | .keyWrite f _ => requestOfCode .keyWrite f
  | .keyLock f _ => requestOfCode .keyLock f
  | .unknownRequest f => requestFrame f && (requestOf (numOf f.payload 1 1)).isNone
  | .nonvolatileWriteDone => true
  | .warmRestart => true
  | .restartPeriodExpiry _ => true
  | .repeaterModeExit => true
  | .rstAsserted => true
  | .coldStart _ _ => true
  | .gateActionBadValue f _ => gateRequest (fun a => !decide (1 ≤ a ∧ a ≤ 3)) f
  | .powerLoss => true

end Sys2Proof
end

