-- ==== Sys2Proof/Laws/PerInstr.lean ====
section
/-! SUPPORT. Laws of each command as syntax, one lemma a constructor. GoodFrame: a well-formed command
that carries a ring frame carries a good one (R146), and of the others nothing is asked. -/

namespace Sys2Proof.Laws

open Sys2Proof.Machine

/-- The ring frame that a command carries, when it carries one. -/
def frameOf : Instr → Option RingFrame
  | .pollTimerExpiry _ => none
  | .airAnswerArrival _ _ => none
  | .answerTimerExpiry _ => none
  | .fieldEmptyTimeout _ => none
  | .exchangeEnded _ => none
  | .hotlistLookup _ => none
  | .fareBankRead _ => none
  | .codeEngineDone _ _ => none
  | .claimHoldExpiry _ => none
  | .sightingArrival f => some f
  | .cloneNoticeArrival f => some f
  | .localHotlistAddition _ => none
  | .mergeStep => none
  | .loaderWrite => none
  | .loaderRead => none
  | .enter _ => none
  | .passed _ => none
  | .clear => none
  | .forced => none
  | .occupiedLong => none
  | .passTimerExpiry => none
  | .stopTimerExpiry _ => none
  | .emergAsserted => none
  | .emergReleased => none
  | .beacon f => some f
  | .beaconWatchExpiry => none
  | .lineTimeAdvance => none
  | .frameStripped f => some f
  | .frameDropped _ => none
  | .frameForwarded f => some f
  | .ringOutFrameEnd => none
  | .sentEntryAgeing => none
  | .answerQueueFullDrop f => some f
  | .describe f => some f
  | .status f => some f
  | .counters f => some f
  | .countersClear f _ => some f
  | .setup f _ => some f
  | .gateFreeOn f _ => some f
  | .gateFreeOff f _ => some f
  | .gateAlarmRelease f _ => some f
  | .restart f _ => some f
  | .loadBegin f _ => some f
  | .loadData f _ => some f
  | .loadEnd f _ => some f
  | .keyWrite f _ => some f
  | .keyLock f _ => some f
  | .unknownRequest f => some f
  | .nonvolatileWriteDone => none
  | .warmRestart => none
  | .restartPeriodExpiry _ => none
  | .repeaterModeExit => none
  | .rstAsserted => none
  | .coldStart _ _ => none
  | .gateActionBadValue f _ => some f
  | .powerLoss => none

/-- The frame of a well-formed command is good (R146). -/
def GoodFrame.Statement (i : Instr) : Prop :=
  i.wellFormed = true → ∀ f, frameOf i = some f → frameGood f = true

/-- A command that carries no frame meets the law. -/
theorem goodFrame_of_none {i : Instr} (h : frameOf i = none) : GoodFrame.Statement i := by
  intro _ f hf; rw [h] at hf; cases hf

/-- A command whose check implies that its frame is good meets the law. -/
theorem goodFrame_of_good {i : Instr} {f : RingFrame} (hf : frameOf i = some f)
    (h : i.wellFormed = true → frameGood f = true) : GoodFrame.Statement i := by
  intro hw g hg; rw [hf] at hg; cases hg; exact h hw

theorem goodOfKind_good {k : Nat} {f : RingFrame} (h : goodOfKind k f = true) : frameGood f = true := by
  simp only [goodOfKind, Bool.and_eq_true] at h; exact h.1

theorem requestFrame_good {f : RingFrame} (h : requestFrame f = true) : frameGood f = true := by
  simp only [requestFrame, Bool.and_eq_true] at h; exact goodOfKind_good h.1

theorem requestOfCode_good {r : Request} {f : RingFrame} (h : requestOfCode r f = true) :
    frameGood f = true := by
  simp only [requestOfCode, Bool.and_eq_true] at h; exact requestFrame_good h.1

theorem gateRequest_good {p : Nat → Bool} {f : RingFrame} (h : gateRequest p f = true) :
    frameGood f = true := by
  simp only [gateRequest, Bool.and_eq_true] at h; exact requestOfCode_good h.1

theorem GoodFrame.pollTimerExpiry (sd : Side) : GoodFrame.Statement (.pollTimerExpiry sd) :=
  goodFrame_of_none rfl

theorem GoodFrame.airAnswerArrival (sd : Side) (report : AirReport) :
    GoodFrame.Statement (.airAnswerArrival sd report) :=
  goodFrame_of_none rfl

theorem GoodFrame.answerTimerExpiry (sd : Side) : GoodFrame.Statement (.answerTimerExpiry sd) :=
  goodFrame_of_none rfl

theorem GoodFrame.fieldEmptyTimeout (sd : Side) : GoodFrame.Statement (.fieldEmptyTimeout sd) :=
  goodFrame_of_none rfl

theorem GoodFrame.exchangeEnded (sd : Side) : GoodFrame.Statement (.exchangeEnded sd) :=
  goodFrame_of_none rfl

theorem GoodFrame.hotlistLookup (sd : Side) : GoodFrame.Statement (.hotlistLookup sd) :=
  goodFrame_of_none rfl

theorem GoodFrame.fareBankRead (sd : Side) : GoodFrame.Statement (.fareBankRead sd) :=
  goodFrame_of_none rfl

theorem GoodFrame.codeEngineDone (engine : EngineId) (keyload : Bool) :
    GoodFrame.Statement (.codeEngineDone engine keyload) :=
  goodFrame_of_none rfl

theorem GoodFrame.claimHoldExpiry (sd : Side) : GoodFrame.Statement (.claimHoldExpiry sd) :=
  goodFrame_of_none rfl

theorem GoodFrame.sightingArrival (f : RingFrame) : GoodFrame.Statement (.sightingArrival f) :=
  goodFrame_of_good rfl goodOfKind_good

theorem GoodFrame.cloneNoticeArrival (f : RingFrame) :
    GoodFrame.Statement (.cloneNoticeArrival f) :=
  goodFrame_of_good rfl goodOfKind_good

theorem GoodFrame.localHotlistAddition (u : Uid) :
    GoodFrame.Statement (.localHotlistAddition u) :=
  goodFrame_of_none rfl

theorem GoodFrame.mergeStep : GoodFrame.Statement .mergeStep :=
  goodFrame_of_none rfl

theorem GoodFrame.loaderWrite : GoodFrame.Statement .loaderWrite :=
  goodFrame_of_none rfl

theorem GoodFrame.loaderRead : GoodFrame.Statement .loaderRead :=
  goodFrame_of_none rfl

theorem GoodFrame.enter (sd : Side) : GoodFrame.Statement (.enter sd) :=
  goodFrame_of_none rfl

theorem GoodFrame.passed (sd : Side) : GoodFrame.Statement (.passed sd) :=
  goodFrame_of_none rfl

theorem GoodFrame.clear : GoodFrame.Statement .clear :=
  goodFrame_of_none rfl

theorem GoodFrame.forced : GoodFrame.Statement .forced :=
  goodFrame_of_none rfl

theorem GoodFrame.occupiedLong : GoodFrame.Statement .occupiedLong :=
  goodFrame_of_none rfl

theorem GoodFrame.passTimerExpiry : GoodFrame.Statement .passTimerExpiry :=
  goodFrame_of_none rfl

theorem GoodFrame.stopTimerExpiry (sd : Side) : GoodFrame.Statement (.stopTimerExpiry sd) :=
  goodFrame_of_none rfl

theorem GoodFrame.emergAsserted : GoodFrame.Statement .emergAsserted :=
  goodFrame_of_none rfl

theorem GoodFrame.emergReleased : GoodFrame.Statement .emergReleased :=
  goodFrame_of_none rfl

theorem GoodFrame.beacon (f : RingFrame) : GoodFrame.Statement (.beacon f) :=
  goodFrame_of_good rfl (fun h => by
    simp only [Instr.wellFormed, Bool.and_eq_true] at h; exact goodOfKind_good h.1.1)

theorem GoodFrame.beaconWatchExpiry : GoodFrame.Statement .beaconWatchExpiry :=
  goodFrame_of_none rfl

theorem GoodFrame.lineTimeAdvance : GoodFrame.Statement .lineTimeAdvance :=
  goodFrame_of_none rfl

theorem GoodFrame.frameStripped (f : RingFrame) : GoodFrame.Statement (.frameStripped f) :=
  goodFrame_of_good rfl (fun h => by
    simp only [Instr.wellFormed, Bool.and_eq_true] at h; exact h.1)

theorem GoodFrame.frameDropped (bytes : List Byte) : GoodFrame.Statement (.frameDropped bytes) :=
  goodFrame_of_none rfl

theorem GoodFrame.frameForwarded (f : RingFrame) : GoodFrame.Statement (.frameForwarded f) :=
  goodFrame_of_good rfl (fun h => h)

theorem GoodFrame.ringOutFrameEnd : GoodFrame.Statement .ringOutFrameEnd :=
  goodFrame_of_none rfl

theorem GoodFrame.sentEntryAgeing : GoodFrame.Statement .sentEntryAgeing :=
  goodFrame_of_none rfl

theorem GoodFrame.answerQueueFullDrop (f : RingFrame) :
    GoodFrame.Statement (.answerQueueFullDrop f) :=
  goodFrame_of_good rfl requestFrame_good

theorem GoodFrame.describe (f : RingFrame) : GoodFrame.Statement (.describe f) :=
  goodFrame_of_good rfl requestOfCode_good

theorem GoodFrame.status (f : RingFrame) : GoodFrame.Statement (.status f) :=
  goodFrame_of_good rfl requestOfCode_good

theorem GoodFrame.counters (f : RingFrame) : GoodFrame.Statement (.counters f) :=
  goodFrame_of_good rfl requestOfCode_good

theorem GoodFrame.countersClear (f : RingFrame) (keyload : Bool) :
    GoodFrame.Statement (.countersClear f keyload) :=
  goodFrame_of_good rfl requestOfCode_good

theorem GoodFrame.setup (f : RingFrame) (keyload : Bool) : GoodFrame.Statement (.setup f keyload) :=
  goodFrame_of_good rfl requestOfCode_good

theorem GoodFrame.gateFreeOn (f : RingFrame) (keyload : Bool) :
    GoodFrame.Statement (.gateFreeOn f keyload) :=
  goodFrame_of_good rfl (gateRequest_good (p := fun a => decide (a = 1)))

theorem GoodFrame.gateFreeOff (f : RingFrame) (keyload : Bool) :
    GoodFrame.Statement (.gateFreeOff f keyload) :=
  goodFrame_of_good rfl (gateRequest_good (p := fun a => decide (a = 2)))

theorem GoodFrame.gateAlarmRelease (f : RingFrame) (keyload : Bool) :
    GoodFrame.Statement (.gateAlarmRelease f keyload) :=
  goodFrame_of_good rfl (gateRequest_good (p := fun a => decide (a = 3)))

theorem GoodFrame.restart (f : RingFrame) (keyload : Bool) :
    GoodFrame.Statement (.restart f keyload) :=
  goodFrame_of_good rfl requestOfCode_good

theorem GoodFrame.loadBegin (f : RingFrame) (keyload : Bool) :
    GoodFrame.Statement (.loadBegin f keyload) :=
  goodFrame_of_good rfl requestOfCode_good

theorem GoodFrame.loadData (f : RingFrame) (keyload : Bool) :
    GoodFrame.Statement (.loadData f keyload) :=
  goodFrame_of_good rfl requestOfCode_good

theorem GoodFrame.loadEnd (f : RingFrame) (keyload : Bool) :
    GoodFrame.Statement (.loadEnd f keyload) :=
  goodFrame_of_good rfl requestOfCode_good

theorem GoodFrame.keyWrite (f : RingFrame) (keyload : Bool) :
    GoodFrame.Statement (.keyWrite f keyload) :=
  goodFrame_of_good rfl requestOfCode_good

theorem GoodFrame.keyLock (f : RingFrame) (keyload : Bool) :
    GoodFrame.Statement (.keyLock f keyload) :=
  goodFrame_of_good rfl requestOfCode_good

theorem GoodFrame.unknownRequest (f : RingFrame) : GoodFrame.Statement (.unknownRequest f) :=
  goodFrame_of_good rfl (fun h => by
    simp only [Instr.wellFormed, Bool.and_eq_true] at h; exact requestFrame_good h.1)

theorem GoodFrame.nonvolatileWriteDone : GoodFrame.Statement .nonvolatileWriteDone :=
  goodFrame_of_none rfl

theorem GoodFrame.warmRestart : GoodFrame.Statement .warmRestart :=
  goodFrame_of_none rfl

theorem GoodFrame.restartPeriodExpiry (passing : Bool) :
    GoodFrame.Statement (.restartPeriodExpiry passing) :=
  goodFrame_of_none rfl

theorem GoodFrame.repeaterModeExit : GoodFrame.Statement .repeaterModeExit :=
  goodFrame_of_none rfl

theorem GoodFrame.rstAsserted : GoodFrame.Statement .rstAsserted :=
  goodFrame_of_none rfl

theorem GoodFrame.coldStart (gateNo : BitVec 4) (passing : Bool) :
    GoodFrame.Statement (.coldStart gateNo passing) :=
  goodFrame_of_none rfl

theorem GoodFrame.gateActionBadValue (f : RingFrame) (keyload : Bool) :
    GoodFrame.Statement (.gateActionBadValue f keyload) :=
  goodFrame_of_good rfl (gateRequest_good (p := fun a => !decide (1 ≤ a ∧ a ≤ 3)))

theorem GoodFrame.powerLoss : GoodFrame.Statement .powerLoss :=
  goodFrame_of_none rfl

end Sys2Proof.Laws
end

