-- ==== Sys2Proof/Laws/Requests.lean ====
section
/-! SUPPORT. The receipt of a management request, said once: what a judged request meets (R152, R187,
R198, R199), and what forming its answer leaves (R152, R199). -/

namespace Sys2Proof.Machine

/-- An event of a running part is the effect of the event and its end. -/
theorem live_running {f : State → State} {s : State} (h : s.power = .running) :
    live f s = settle (f s) := if_pos h

theorem toBE_length (w n : Nat) : (toBE w n).length = w := by
  induction w generalizing n <;> simp_all [toBE]

/-! ### A frame for all gates goes on (R151, R153) -/

@[simp] theorem ringPassing_held (f : RingFrame) (r : Ring) : (ringPassing f r).held = r.held := by
  unfold ringPassing; split <;> rfl
@[simp] theorem ringPassing_filled (f : RingFrame) (r : Ring) :
    (ringPassing f r).filled = r.filled := by
  unfold ringPassing; split <;> rfl
@[simp] theorem ringPassing_gateNo (f : RingFrame) (r : Ring) :
    (ringPassing f r).gateNo = r.gateNo := by
  unfold ringPassing; split <;> rfl
@[simp] theorem ringPassing_duplicate (f : RingFrame) (r : Ring) :
    (ringPassing f r).duplicate = r.duplicate := by
  unfold ringPassing; split <;> rfl
@[simp] theorem ringPassing_insertion (f : RingFrame) (r : Ring) :
    (ringPassing f r).insertion = r.insertion := by
  unfold ringPassing; split <;> rfl
@[simp] theorem ringPassing_intentReserved (f : RingFrame) (r : Ring) :
    (ringPassing f r).intentReserved = r.intentReserved := by
  unfold ringPassing; split <;> rfl
@[simp] theorem ringPassing_joined (f : RingFrame) (r : Ring) :
    (ringPassing f r).joined = r.joined := by
  unfold ringPassing; split <;> rfl
@[simp] theorem ringPassing_sent (f : RingFrame) (r : Ring) : (ringPassing f r).sent = r.sent := by
  unfold ringPassing; split <;> rfl

/-- A taken frame goes on when it is for all gates. -/
theorem forwardIfAll_ring (f : RingFrame) (s : State) :
    forwardIfAll f s = { s with ring := ringPassing f s.ring } := by
  unfold forwardIfAll toAll forwardFrame ringPassing
  by_cases h : frameDest f = 31 <;> by_cases h2 : s.ring.forward.length < 4 <;> simp [h, h2, modRing]

/-! ### A request at the idle decoder -/

/-- The state that a judged request meets: the frame has gone on, a place is held, and the KEYLOAD pin
stands at its level. -/
def requestHeld (f : RingFrame) (keyload : Bool) (s : State) : State :=
  { s with
    keyload := keyload, ring := { ringPassing f s.ring with held := s.ring.held + 1 } }

@[simp] theorem requestHeld_power (f : RingFrame) (k : Bool) (s : State) :
    (requestHeld f k s).power = s.power := rfl
@[simp] theorem requestHeld_keyload (f : RingFrame) (k : Bool) (s : State) :
    (requestHeld f k s).keyload = k := rfl
@[simp] theorem requestHeld_store (f : RingFrame) (k : Bool) (s : State) :
    (requestHeld f k s).store = s.store := rfl
@[simp] theorem requestHeld_hot (f : RingFrame) (k : Bool) (s : State) :
    (requestHeld f k s).hot = s.hot := rfl
@[simp] theorem requestHeld_loader (f : RingFrame) (k : Bool) (s : State) :
    (requestHeld f k s).loader = s.loader := rfl
@[simp] theorem requestHeld_arb (f : RingFrame) (k : Bool) (s : State) :
    (requestHeld f k s).arb = s.arb := rfl
@[simp] theorem requestHeld_gate (f : RingFrame) (k : Bool) (s : State) :
    (requestHeld f k s).gate = s.gate := rfl
@[simp] theorem requestHeld_clock (f : RingFrame) (k : Bool) (s : State) :
    (requestHeld f k s).clock = s.clock := rfl
@[simp] theorem requestHeld_decoder (f : RingFrame) (k : Bool) (s : State) :
    (requestHeld f k s).decoder = s.decoder := rfl
@[simp] theorem requestHeld_journal (f : RingFrame) (k : Bool) (s : State) :
    (requestHeld f k s).journal = s.journal := rfl
@[simp] theorem requestHeld_keys (f : RingFrame) (k : Bool) (s : State) :
    (requestHeld f k s).keys = s.keys := rfl
@[simp] theorem requestHeld_lineKey (f : RingFrame) (k : Bool) (s : State) :
    lineKey (requestHeld f k s) = lineKey s := rfl
@[simp] theorem requestHeld_slotAt (f : RingFrame) (k : Bool) (s : State) (n : Nat) :
    slotAt (requestHeld f k s) n = slotAt s n := rfl
@[simp] theorem requestHeld_fresh (f : RingFrame) (k : Bool) (s : State) (n : Nat) :
    fresh (requestHeld f k s) n = fresh s n := rfl

/-- What a request at an idle decoder with a place meets: its length, its protection, its owner. -/
theorem arriveRequest_idle {r : Request} {f : RingFrame} {s : State}
    (arrives : requestArrives s r f = true) (place : answerUsed s.ring < 4)
    (idle : s.decoder.state = .idle) :
    arriveRequest r f s = judgeRequest r f (requestHeld f s.keyload s) := by
  unfold arriveRequest
  rw [if_pos arrives]
  have e : holdPlace (forwardIfAll f s) = requestHeld f s.keyload s := by
    rw [forwardIfAll_ring]; simp [holdPlace, modRing, requestHeld]
  unfold receiveRequest handRequest
  simp only [place, if_true, e]
  rw [if_pos (show (requestHeld f s.keyload s).decoder.state = .idle from idle)]

/-- An open request that is judged goes to its owner. -/
theorem arriveRequest_open {r : Request} {f : RingFrame} {s : State} (h : Judged r f s)
    (ho : isOpenRequest r = true) :
    arriveRequest r f s =
      ownRequest (inHandOf r (frameDest f) f.payload) (requestHeld f s.keyload s) := by
  rw [arriveRequest_idle h.arrives h.place h.idle]
  simp [judgeRequest, h.length, ho]

/-- A protected request that is judged goes to its protection. -/
theorem arriveProtected_judged {r : Request} {f : RingFrame} {s : State} (k : Bool)
    (h : Judged r f s) (ho : isOpenRequest r = false) :
    arriveProtected r f k s =
      protect (inHandOf r (frameDest f) f.payload) (requestHeld f k s) := by
  unfold arriveProtected
  rw [arriveRequest_idle (s := { s with keyload := k }) h.arrives h.place h.idle]
  simp [judgeRequest, h.length, ho]
  rfl

/-- A protected request accepted uncoded goes to its owner. -/
theorem arriveProtected_uncoded {r : Request} {f : RingFrame} {s : State} (h : Uncoded r f s)
    (ho : isOpenRequest r = false) :
    arriveProtected r f true s =
      ownRequest (inHandOf r (frameDest f) f.payload) (requestHeld f true s) := by
  rw [arriveProtected_judged true h.toJudged ho]
  simp [protect, h.noKey, strapCheck]

/-- An answer formed in the event of the arrival leaves its place filled and the decoder as told. -/
theorem finishRequest_held {s : State} (next : DecoderState) (r : Request) (code : AnswerCode)
    (data : List Byte) (f : RingFrame) (k : Bool) (place : answerUsed s.ring < 4) :
    finishRequest next r code data (requestHeld f k s) =
      { s with
        keyload := k, ring := ringAnswering r code data (ringPassing f s.ring)
        decoder := { s.decoder with state := next, inHand := none } } := by
  unfold answerUsed at place
  simp [finishRequest, fillAnswer, modRing, modDecoder, requestHeld, ringAnswering, answerUsed, place]

/-- An answer code formed in the event of the arrival of a request accepted uncoded. -/
theorem answerCode_uncoded {s : State} (r : Request) (code : AnswerCode) (f : RingFrame)
    (place : answerUsed s.ring < 4) :
    answerCode r code (requestHeld f true s) = uncodedAnswered r code [] f s :=
  finishRequest_held .idle r code [] f true place

end Sys2Proof.Machine
end

