-- ==== Sys2Proof/Tests/Slice0.lean ====
section
/-! SUPPORT. Tests of the model: published values of the public functions, the worked examples of the
manual, one or two single events for each command, one ill-formed operand for each check of WellFormed,
and a witness for the hypotheses of each obligation. Expected results come from the manual or the public
standards named beside them. -/

namespace Sys2Proof.Tests

open Sys2Proof Sys2Proof.Machine

set_option Elab.async false

/-! ### Public functions (R146, R180, R181) -/

/-- The check value of this CRC over the digits 1 to 9. -/
theorem test_crc_check_value :
    crc16 [0x31, 0x32, 0x33, 0x34, 0x35, 0x36, 0x37, 0x38, 0x39] = 0x29B1#16 := by decide +kernel

/-- FIPS 197, appendix C.1. -/
theorem test_aes_block :
    aes128 0x000102030405060708090a0b0c0d0e0f#128 (toBE 16 0x00112233445566778899aabbccddeeff) =
      toBE 16 0x69c4e0d86a7b0430d8cdb78070b4c55a := by decide +kernel

/-- The key of the examples of RFC 4493. -/
def cmacKey : Key := 0x2b7e151628aed2a6abf7158809cf4f3c#128

/-- RFC 4493, example 1: the empty message. -/
theorem test_cmac_empty : cmac cmacKey [] = toBE 16 0xbb1d6929e95937287fa37d129b756746 := by
  decide +kernel

/-- RFC 4493, example 2: one whole block. -/
theorem test_cmac_one_block :
    cmac cmacKey (toBE 16 0x6bc1bee22e409f96e93d7e117393172a) =
      toBE 16 0x070a16b46b4d4144f79bdd9dd04a287c := by decide +kernel

/-- RFC 4493, example 3: 40 bytes. -/
theorem test_cmac_forty_bytes :
    cmac cmacKey
        (toBE 16 0x6bc1bee22e409f96e93d7e117393172a ++ toBE 16 0xae2d8a571e03ac9c9eb76fac45af8e51 ++
          toBE 8 0x30c81c46a35ce411) =
      toBE 16 0xdfa66747de9ae63030ca32611497c827 := by decide +kernel

/-- The table's rows give no bits, so no word spells a command. -/
theorem test_no_word_spells_a_command : decodeTableWord 0 0 = none ∧ decodeTableWord 32 0xFFFFFFFF = none := by
  decide

/-! ### The worked example of chapter 3 -/

/-- The table of the worked example. -/
def chainTable : FareTable :=
  { format := 1, version := 1, activation := 0, issuerCount := 1, issuers := [77], zones := 6
    unit := 10, bandCount := 5, maxFare := 900, incompleteFare := 600, overdraft := 500
    transferWindow := 60, maxLegs := 3, passback := 10, passWindow := 8, reuseWindow := 120
    retention := 20, dayStart := 240
    classes := [⟨0, 0, 0⟩, ⟨50, 600, 100⟩]
    bands := [⟨0, 80⟩, ⟨420, 120⟩, ⟨600, 100⟩, ⟨960, 120⟩, ⟨1140, 80⟩]
    matrix := [120, 180, 260, 340, 400, 460, 120, 180, 260, 340, 400, 120, 180, 260, 340, 120, 180, 260,
      120, 180, 120] }

/-- The valid record before the first tap. -/
def chainCard : Journey :=
  { tc := 41, balance := 1500, state := journeyOut, legs := 1, entryStation := 1208
    entryTime := 12958870, originZone := 2, originBand := 4, chainPaid := 180, format := 1
    lastExit := 12958900, dayAccumulated := 340, dayNumber := 8999, spare := 0 }

/-- The record after the first entry of the example. -/
def chainIn : Journey :=
  { tc := 42, balance := 1500, state := journeyIn, legs := 1, entryStation := 1101
    entryTime := 12960495, originZone := 0, originBand := 1, chainPaid := 0, format := 1
    lastExit := 12958900, dayAccumulated := 0, dayNumber := 9000, spare := 0 }

/-- The record after the first exit of the example. -/
def chainOut : Journey :=
  { chainIn with
    tc := 43, balance := 1300, state := journeyOut, chainPaid := 200, lastExit := 12960520
    dayAccumulated := 200 }

/-- The record after the second entry of the example. -/
def chainIn2 : Journey :=
  { chainOut with tc := 44, state := journeyIn, legs := 2, entryStation := 1304, entryTime := 12960545 }

/-- The record after the second exit of the example. -/
def chainOut2 : Journey :=
  { chainIn2 with
    tc := 45, balance := 1220, state := journeyOut, chainPaid := 280, lastExit := 12960610
    dayAccumulated := 280 }

/-- A request to the Fare Unit under the example's table. -/
def fareAt (side : Side) (card : Journey) (station zone now : Nat) : FareInput :=
  { side := side, card := card, cls := 1, station := station, zone := zone, now := now
    table := chainTable }

/-- The charge and flags of an accept of the Fare Unit, with the record composed for it. -/
def fareResult (i : FareInput) : Option (Nat × FareFlags × Journey) :=
  match fareUnit i with
  | .refusal _ => none
  | .accept a => some (a.charge, a.flags, composeJourney i a)

/-- The charge and flags of an accept. -/
def fareCharge (i : FareInput) : Option (Nat × FareFlags) :=
  (fareResult i).map (fun r => (r.1, r.2.1))

theorem test_chain_first_entry :
    fareResult (fareAt .a chainCard 1101 0 12960495) =
      some (0, ⟨false, false, false, false⟩, chainIn) := by decide +kernel

theorem test_chain_first_exit :
    fareResult (fareAt .b chainIn 1304 3 12960520) =
      some (200, ⟨false, false, false, false⟩, chainOut) := by decide +kernel

/-- The history entry of the first exit: EXIT, 1304, 12,960,520, 200, 1,300, TC 43. -/
theorem test_chain_first_history :
    historyBytes (historyFields (fareAt .b chainIn 1304 3 12960520)
        { plan := .exitFare, charge := 200, balanceAfter := 1300, flags := noFareFlags }) =
      toBE 1 2 ++ toBE 2 1304 ++ toBE 3 12960520 ++ toBE 2 200 ++ toBE 3 1300 ++ toBE 3 43 ++
        [0, 0] := by decide +kernel

theorem test_chain_second_entry :
    fareResult (fareAt .a chainOut 1304 3 12960545) =
      some (0, ⟨false, false, false, true⟩, chainIn2) := by decide +kernel

theorem test_chain_second_exit :
    fareResult (fareAt .b chainIn2 1502 5 12960610) =
      some (80, ⟨false, false, false, true⟩, chainOut2) := by decide +kernel

/-- Re-entry 61 minutes after the exit begins a new chain, and the exit then charges 160. -/
theorem test_chain_late_entry :
    (fareResult (fareAt .a chainOut 1304 3 12960581)).map (fun r => (r.1, r.2.2.originZone,
        r.2.2.originBand, r.2.2.legs)) = some (0, 3, 1, 1) ∧
    fareCharge
      (fareAt .b
        { chainIn2 with legs := 1, originZone := 3, originBand := 1, chainPaid := 0 } 1502 5 12960610) =
      some (160, ⟨false, false, false, false⟩) := by decide +kernel

/-! ### The further cases of chapter 3 -/

/-- Cap reached and cap passed: room 40 and room 0 for a fare of 120. -/
theorem test_cap_reached_and_passed :
    capStep 600 560 120 = 40 ∧ capApplies 600 560 120 = true ∧ capStep 600 650 120 = 0 ∧
      capApplies 600 650 120 = true := by decide

/-- The tie is rounded down. -/
theorem test_rounding_tie : roundFare 2250000 10 = 220 ∧ roundFare 2250001 10 = 230 := by decide

/-- The clamp: origin zone 9 of 6, band 2. -/
theorem test_zone_clamp :
    (fareResult (fareAt .b { chainIn with originZone := 9, originBand := 2 } 1502 5 12960520)).map
        (fun r => (r.1, r.2.1, r.2.2.originZone)) =
      some (60, ⟨true, false, false, false⟩, 9) := by decide +kernel

/-- The chain above the fare charges nothing. -/
theorem test_chain_above_fare :
    (fareResult (fareAt .b { chainIn2 with chainPaid := 300 } 1502 5 12960610)).map
        (fun r => (r.1, r.2.2.chainPaid)) = some (0, 300) := by decide +kernel

/-- The day total saturates. -/
theorem test_day_total_saturates : satAdd 65500 80 = 65535 := by decide

/-- The overdraft: −450 less 80 is under −500. -/
theorem test_overdraft :
    fareUnit (fareAt .b { chainIn2 with balance := -450 } 1502 5 12960610) = .refusal .insufficient := by
  decide +kernel

/-- Entry while IN from another station: penalty 600 in a room of 320. -/
theorem test_entry_while_in :
    (fareResult
        (fareAt .a
          { chainIn2 with
            entryStation := 1208, entryTime := 12960490, dayAccumulated := 280, balance := 1220 } 1101 0
          12960610)).map (fun r => (r.1, r.2.1, r.2.2.balance, r.2.2.legs)) =
      some (320, ⟨false, true, true, false⟩, 900, 1) := by decide +kernel

/-- Entry while IN at the same station 4 minutes after the entry. -/
theorem test_passback :
    fareUnit (fareAt .a chainIn 1101 0 12960499) = .refusal .passback := by decide +kernel

/-- Exit while OUT: the penalty of 600, and the chain closed. -/
theorem test_exit_while_out :
    (fareResult (fareAt .b { chainOut2 with dayAccumulated := 0 } 1502 5 12960700)).map
        (fun r => (r.1, r.2.1, r.2.2.balance, r.2.2.state, r.2.2.legs, r.2.2.chainPaid)) =
      some (600, ⟨false, false, true, false⟩, 620, journeyOut, 0, 0) := by decide +kernel

/-- Before the day start the previous service day stands, and before the first band the last band. -/
theorem test_day_start_and_band_wrap :
    serviceDay (9000 * 1440 + 200) 240 = 8999 ∧ bandAt [⟨0, 80⟩, ⟨420, 120⟩] 200 = 0 ∧
      bandAt [⟨300, 100⟩, ⟨600, 100⟩, ⟨1200, 100⟩] 100 = 2 := by decide

/-! ### The slot choice of chapter 1 -/

/-- A transaction whose slots are of a class and hold a TC. -/
def slotsRead (clsA : SlotClass) (tcA : Nat) (clsB : SlotClass) (tcB : Nat) : State :=
  modRecord .b
    (fun r =>
      { r with
        classA := some clsA, classB := some clsB
        blocks := [toBE 3 tcA, [], toBE 3 tcB, []] })
    { State.reset with
      taps := ⟨Tap.cold, { Tap.cold with state := .deciding }⟩ }

/-- What check 6 leaves: the valid slot and the target, or the refusal. -/
def slotChoice (clsA : SlotClass) (tcA : Nat) (clsB : SlotClass) (tcB : Nat) :
    Option SlotId × Option SlotId × Option RefusalCode :=
  let r := (check6 .b (slotsRead clsA tcA clsB tcB)).taps.b.record
  (r.validSlot, r.target, r.refusal)

/-- The eight rows of the example. -/
theorem test_slot_choice :
    slotChoice .valid 41 .uncoded 0 = (some .a, some .b, none) ∧
    slotChoice .valid 41 .valid 42 = (some .b, some .a, none) ∧
    slotChoice .valid 42 .valid 41 = (some .a, some .b, none) ∧
    slotChoice .valid 42 .valid 42 = (some .a, some .b, none) ∧
    slotChoice .uncoded 0 .uncoded 0 = (none, none, some .codeFail) ∧
    slotChoice .valid 41 .codedBad 42 = (none, none, some .badRecord) ∧
    slotChoice .codedBad 40 .valid 41 = (some .b, some .a, none) ∧
    slotChoice .codedBad 41 .codedBad 41 = (none, none, some .badRecord) := by decide +kernel

/-! ### A gate in service -/

/-- A number in a word of a table image. -/
def word (n : Nat) : List Byte := toBE 4 n

/-- A fare table image of two zones and one band, pass window 8 s, reuse window 120 s, retention 20 min,
issuer 77. -/
def tableImage : List Byte :=
  word 1 ++ word 41 ++ word 0 ++ word 1 ++ word 77 ++ word 0 ++ word 0 ++ word 0 ++ word 2 ++ word 10 ++
    word 1 ++ word 900 ++ word 600 ++ word 500 ++ word 60 ++ word 3 ++ word 10 ++ word 8 ++ word 120 ++
    word 20 ++ word 240 ++ (List.replicate 8 (word 0 ++ word 0 ++ word 100)).flatten ++
    (toBE 2 0 ++ toBE 2 100) ++ (toBE 2 200 ++ toBE 2 280 ++ toBE 2 210)

/-- The image passes the checks of R165, and one whose rounding unit is 3 does not. -/
theorem test_fare_image :
    fareImageGood tableImage = true ∧
      fareImageGood (tableImage.take 36 ++ word 3 ++ tableImage.drop 40) = false := by decide +kernel

/-- A channel in POLLING with its WAKE window open. -/
def pollingChannel : Channel :=
  { state := .polling, outstanding := some ⟨.wake, 1⟩, answerTimer := some 5, pollTimer := some 10
    fieldEmpty := none, lost := false }

/-- Gate 3 in service in mode BOTH, both channels polling, JOINED, at line time 777,600,000. -/
def inService : State :=
  { State.reset with
    chans := ⟨pollingChannel, pollingChannel⟩
    store :=
      { bankX := { state := .active, image := tableImage, version := 41, activation := 0, refs := 0 }
        bankY := Bank.cold
        params := some ⟨41, 0, 8, 120, 20⟩
        setup := some ⟨7, 1, .both, .inService⟩ }
    ring := { State.reset.ring with gateNo := 3, joined := true, watch := some 1500 }
    gate := { State.reset.gate with leafCause := ⟨.closed, none⟩, indicator := ⟨.ready, .ready⟩ }
    clock := { lineTime := 777600000, isSet := true, hold := false, phase := 0, localMs := 5000 } }

/-- The next state of a command, or the state itself where it has none. -/
def run (c : Instr) (s : State) : State :=
  match exec c s with
  | .next t => t
  | _ => s

theorem test_in_service_settled : settle inService = inService := by decide +kernel

/-- The card of the tests. -/
def cardUid : Uid := 0x04112233445566#56

/-- A channel in ENGAGED with a command outstanding. -/
def engagedChannel (cmd : Option Outstanding) : Channel :=
  { state := .engaged, outstanding := cmd, answerTimer := cmd.map (fun _ => 5), pollTimer := none
    fieldEmpty := none, lost := false }

/-- A transaction of the card at a side, in a state and with items of its record. -/
def tapping (sd : Side) (st : TapState) (cmd : Option Outstanding) (f : TapRecord → TapRecord) : State :=
  { inService with
    chans := inService.chans.set sd (engagedChannel cmd)
    taps := inService.taps.set sd
      { state := st, ending := false, hold := none
        record := f { TapRecord.empty with uid := some cardUid } } }

/-! ### Air Channels -/

/-- R17: WAKE at the expiry, and the timer restarted. -/
theorem test_poll_sends_wake :
    (run (.pollTimerExpiry .a)
      { inService with
        chans := inService.chans.set .a { pollingChannel with outstanding := none, answerTimer := none } }).chans.a =
      pollingChannel := by decide +kernel

/-- R17, item 4: a card found in POLLING is selected. -/
theorem test_card_found :
    let t := run (.airAnswerArrival .b (.good (.uid cardUid))) inService
    t.chans.b.outstanding = some ⟨.select cardUid, 1⟩ ∧ t.taps.b.state = .selecting := by decide +kernel

/-- R17, item 3: two cards show TAP_AGAIN. -/
theorem test_two_cards :
    let t := run (.airAnswerArrival .b .collision) inService
    t.chans.b.state = .awaitRemoval ∧ t.gate.indicator.b = .stop .tapAgain := by decide +kernel

/-- R11: the second failure is the card-lost event, and CARD_LOST before DECIDING. -/
theorem test_second_failure_is_card_lost :
    let t := run (.answerTimerExpiry .a) (tapping .a .reading (some ⟨.read 2, 2⟩) id)
    t.taps.a.record.refusal = some .cardLost ∧ t.chans.a.outstanding = some ⟨.halt, 1⟩ := by
  decide +kernel

/-- R21: 300 ms of an empty field end the wait. -/
theorem test_field_empty :
    (run (.fieldEmptyTimeout .b)
      { inService with chans := inService.chans.set .b { awaitChannel with fieldEmpty := some 300 } }).chans.b.state =
      .polling := by decide +kernel

/-- R20: an enabled side waits for the removal of its card. -/
theorem test_exchange_ended :
    (run (.exchangeEnded .b) (tapping .b .finishing (some ⟨.halt, 1⟩) id)).chans.b = awaitChannel := by
  decide +kernel

/-! ### The memory port -/

/-- The Hotlist Store of the example of chapter 6, with the entries that its table names: K, M, and L, N
on the local list. -/
def mergeLists : Hotlist :=
  { State.reset.hot with
    bank0 := [⟨0x0B, .refuse⟩, ⟨0x0D, .block⟩]
    version := 14
    deltaCond := .present
    deltaOps := [.add 0x10 .refuse, .remove 0x0D, .add 0x0B .block, .add 0x0C .block, .remove 0x11]
    deltaBase := 14
    deltaNew := 15
    localList := [0x0E, 0x0C] }

/-- The lookups of the example before completion: L, M, N, and of K by the delta. -/
theorem test_lookups_during_merge :
    lookupAnswer mergeLists 0x0C = ⟨some .block, 14⟩ ∧ lookupAnswer mergeLists 0x0D = ⟨none, 14⟩ ∧
      lookupAnswer mergeLists 0x0E = ⟨some .refuse, 14⟩ ∧
      lookupAnswer mergeLists 0x0B = ⟨some .block, 14⟩ := by decide +kernel

/-- The delta passes its room check: the two adds and the remove of the example are effective. -/
theorem test_count_after : countAfter mergeLists.bank0 mergeLists.deltaOps = 3 := by decide +kernel

/-- The merge start of the example. -/
def merging : Hotlist := startMerge mergeLists

/-- R116: the operations stand in ascending UID order. -/
theorem test_merge_order :
    merging.mergeOps.map DeltaOp.uid = [0x0B, 0x0C, 0x0D, 0x10, 0x11] := by decide +kernel

/-- The whole merge of the example: the new bank, the version, and the local list with R added. -/
theorem test_merge_result :
    let h := mergeAdvance (mergeAdvance (mergeAdvance (mergeAdvance (addLocal 0x12 (mergeAdvance merging)))))
    activeEntries h = [⟨0x0B, .block⟩, ⟨0x0C, .block⟩, ⟨0x10, .refuse⟩] ∧ h.version = 15 ∧
      h.localList = [0x0E, 0x12] ∧ h.deltaCond = .absent ∧ h.merge = .idle ∧
      lookupAnswer h 0x0C = ⟨some .block, 15⟩ := by decide +kernel

/-- A state whose port serves a grant. -/
def granted (g : StoreGrant) (s : State) : State := { s with arb := { s.arb with inUse := some g } }

/-- MERGE_STEP takes the first step of the example: K with its new action. -/
theorem test_merge_step :
    shadowEntries (run .mergeStep (granted .merge { inService with hot := merging })).hot =
      [⟨0x0B, .block⟩] := by decide +kernel

/-- R30: a UID listed REFUSE is refused HOTLISTED. -/
theorem test_lookup_refuses :
    ((run (.hotlistLookup .b)
      (granted (.tap .b .lookup)
        { tapping .b .deciding none id with
          hot := { State.reset.hot with bank0 := [⟨cardUid, .refuse⟩] } })).taps.b.record.refusal) =
      some .hotlisted := by decide +kernel

/-- R29, check 1: an issuer that the table does not list. -/
theorem test_unknown_issuer :
    ((run (.fareBankRead .a)
      (granted (.tap .a .check1)
        (tapping .a .deciding none
          (fun r =>
            { r with
              bank := some .x
              block0 := some ([0, 78, 1, 1] ++ toBE 2 60000 ++ [3, 1] ++ toBE 8 0) })))).taps.a.record.refusal) =
      some .noCardApp := by decide +kernel

/-- R113: an addition while the list holds fewer than 256 joins the end. -/
theorem test_local_addition :
    (run (.localHotlistAddition cardUid)
      { inService with hot := { State.reset.hot with localList := [1] } }).hot.localList =
      [1, cardUid] := by decide +kernel

/-- R174: an addition that waits for a grant is taken when the grant ends. -/
theorem test_addition_at_the_end_of_a_grant :
    let s := run (.localHotlistAddition cardUid)
      (granted (.loader (.write [1])) { inService with loader := some ⟨.fare, .y, 10, 0, .data⟩ })
    let t := run .loaderWrite s
    s.hot.localList = [] ∧ t.hot.localList = [cardUid] ∧ t.hot.waiting = [] := by decide +kernel

/-- R171: the bytes of a LOAD_DATA reach the load bank. -/
theorem test_loader_write :
    let t := run .loaderWrite
      (granted (.loader (.write [1, 2]))
        { inService with loader := some ⟨.fare, .y, 10, 0, .data⟩ })
    t.store.bankY.image = [1, 2] ∧ t.loader.map Loading.received = some 2 := by decide +kernel

/-- R172: a FARE image whose contents pass becomes PENDING, here with line time unset (R168). -/
theorem test_loader_read_accepts :
    let t := run .loaderRead
      (granted (.loader .read)
        { inService with
          clock := State.reset.clock
          loader := some ⟨.fare, .y, tableImage.length, tableImage.length, .contents 192⟩
          store := { inService.store with bankY := { Bank.cold with image := tableImage } } })
    t.store.bankY.state = .pending ∧ t.store.bankY.version = 41 ∧ t.loader = none := by decide +kernel

/-! ### Code engines and the claim -/

/-- R29, check 2: an identity code that does not verify is refused CODE_FAIL. -/
theorem test_identity_code_fails :
    (run (.codeEngineDone (.channel .a) false)
      { tapping .a .deciding none (fun r => { r with block0 := some (List.replicate 16 0) }) with
        engines := ⟨some .identity, none⟩ }).taps.a.record.refusal = some .codeFail := by decide +kernel

/-- R187: a line code that does not verify is answered UNPROTECTED. -/
theorem test_line_code_fails :
    ((run (.codeEngineDone .ring true)
      { inService with
        ringEngine := some (.lineCode 1)
        ring := { inService.ring with held := 1 }
        decoder :=
          { state := .working, change := none
            inHand := some ⟨.restart, 3, 777600000, [], List.replicate 8 0, true⟩ } }).ring.sending.map
              (fun x => x.frame.payload)) = some [7, 1] := by decide +kernel

/-- R40: at the write point the first changed block goes out. -/
theorem test_write_point :
    let s := tapping .b .claiming none (fun r =>
      { r with target := some .a, journeyImage := some (List.replicate 32 9)
               blocks := List.replicate 4 (List.replicate 16 0) })
    (run (.claimHoldExpiry .b)
      (modTap .b (fun t => { t with hold := some 20 }) s)).chans.b.outstanding =
      some ⟨.write 1 (List.replicate 16 9), 1⟩ := by decide +kernel

/-! ### The ring -/

/-- A sighting of gate 9, channel A, made now. -/
def seen (kind : SightKind) (base result : Nat) : Sighting :=
  { uid := cardUid, kind := kind, base := base, result := result, source := ⟨9, .a⟩, side := .a
    time := 777600000 }

/-- A frame of a sighting. -/
def sightingFrame (x : Sighting) : RingFrame := lineFrame (.sighting x)

/-- R92: a UID that no entry holds is inserted. -/
theorem test_sighting_inserted :
    (run (.sightingArrival (sightingFrame (seen .commit 70 71))) inService).sightings =
      [⟨seen .commit 70 71, false, false, none⟩] := by decide +kernel

/-- The double reuse of the example of chapter 5: the UID joins the local hotlist. -/
theorem test_double_reuse :
    (run (.sightingArrival (sightingFrame (seen .commit 501 501)))
      { inService with
        sightings :=
          [⟨{ seen .commit 501 501 with source := ⟨3, .a⟩ }, false, false, none⟩] }).hot.localList =
      [cardUid] := by decide +kernel

/-- The copy of the example of chapter 5, card TC 70 against COMMIT 71: a finding, whose reason by R98 is
SAME_STATE, where the example writes STATE_BEHIND (assumption log 35). -/
theorem test_clone_check :
    cloneCheck 70 ⟨9, .a⟩ (seen .commit 70 71) = some .sameState ∧
      cloneCheck 69 ⟨9, .a⟩ (seen .commit 70 71) = some .stateBehind ∧
      cloneCheck 71 ⟨9, .a⟩ (seen .commit 70 71) = none := by decide

/-- A CLONE notice of gate 9. -/
def noticeFrame : RingFrame := lineFrame (.notice ⟨cardUid, 70, .stateBehind, ⟨9, .a⟩⟩)

/-- R103: the entry is contested and the UID listed. -/
theorem test_notice :
    let t := run (.cloneNoticeArrival noticeFrame)
      { inService with sightings := [⟨seen .commit 70 71, false, false, none⟩] }
    t.sightings.map SightEntry.contested = [true] ∧ t.hot.localList = [cardUid] := by decide +kernel

/-- A beacon of a line time. -/
def beaconFrame (t : Nat) : RingFrame := buildFrame kindBeacon 0 .a 31 (toBE 4 t)

/-- The clock of the example of chapter 8 at 11,000 ms, and held from 11,500 ms. -/
def clockAt (hold : Bool) : State :=
  { inService with clock := { inService.clock with lineTime := 900001, hold := hold, phase := 499 } }

/-- A beacon stepped back holds the clock. -/
theorem test_beacon_steps_back :
    let c := (run (.beacon (beaconFrame 899997)) (clockAt false)).clock
    c.lineTime = 900001 ∧ c.hold = true ∧ c.phase = 0 := by decide +kernel

/-- A beacon that catches up ends the hold. -/
theorem test_beacon_catches_up :
    let c := (run (.beacon (beaconFrame 900001)) (clockAt true)).clock
    c.lineTime = 900001 ∧ c.hold = false := by decide +kernel

/-- R156: ISOLATED when the watch runs out. -/
theorem test_watch_expires : (run .beaconWatchExpiry inService).ring.joined = false := by decide +kernel

/-- R161: line time rises by 1, and stands while holding. -/
theorem test_line_time :
    (run .lineTimeAdvance inService).clock.lineTime = 777600001 ∧
      (run .lineTimeAdvance (clockAt true)).clock.lineTime = 900001 := by decide +kernel

/-- A frame of this gate. -/
def ownFrame : RingFrame := buildFrame kindAnswer 3 .a 0 [2, 0]

/-- The entry of an own frame in the sent list. -/
def ownEntry : SentEntry := ⟨6, 2, ownFrame.crc, 4900⟩

/-- R147: a returning frame removes its entry, and one without an entry sets DUPLICATE_NUMBER. -/
theorem test_frame_stripped :
    (run (.frameStripped ownFrame)
      { inService with ring := { inService.ring with sent := [ownEntry] } }).ring.sent = [] ∧
    (run (.frameStripped ownFrame) inService).ring.duplicate = true := by decide +kernel

/-- R146: bytes whose CRC fails leave no trace. -/
theorem test_frame_dropped : run (.frameDropped [0, 1, 0, 0, 0, 0]) inService = inService := by
  decide +kernel

/-- R153: a frame to the concentrator is forwarded, and so taken by the idle ring-out. -/
theorem test_frame_forwarded :
    (run (.frameForwarded (buildFrame kindAnswer 9 .a 0 [2, 0])) inService).ring.sending =
      some ⟨buildFrame kindAnswer 9 .a 0 [2, 0], .forward⟩ := by decide +kernel

/-- The ring-out of the example of chapter 8: A1 ends with 15 entries, and A2 waits at 16. -/
theorem test_ring_out_waits_at_sixteen :
    let t := run .ringOutFrameEnd
      { inService with
        ring :=
          { inService.ring with
            sending := some ⟨ownFrame, .answer⟩, filled := [ownFrame]
            sent := List.replicate 15 ownEntry } }
    t.ring.sending = none ∧ t.ring.sent.length = 16 ∧ t.ring.filled = [ownFrame] := by decide +kernel

/-- R148: the oldest entry ages out. -/
theorem test_sent_entry_ages :
    (run .sentEntryAgeing
      { inService with ring := { inService.ring with sent := [ownEntry] } }).ring.sent = [] := by
  decide +kernel

/-- A management request to gate 3 with a request time and parameters, and a line code of zeros. -/
def requestFrameOf (code time : Nat) (params : List Byte) : RingFrame :=
  buildFrame kindRequest 0 .a 3
    ([BitVec.ofNat 8 code] ++ toBE 4 time ++ params ++ List.replicate 8 0)

/-- R152: a request that finds no place is dropped. -/
theorem test_answer_queue_full :
    let s := { inService with ring := { inService.ring with held := 1, filled := [ownFrame, ownFrame, ownFrame]
                                                            sending := some ⟨ownFrame, .answer⟩ } }
    run (.answerQueueFullDrop (requestFrameOf 2 0 [])) s = s := by decide +kernel

/-! ### The lane: the examples of chapter 7 -/

/-- A grant of a side. -/
def grantOf (sd : Side) (tc : Nat) (entered : Bool) : Grant :=
  { side := sd, uid := cardUid, cls := 1, tc := tc, entered := entered }

/-- The gate in service with a grant queue, an occupancy and a pass timer, its outputs following. -/
def withGrants (q : List Grant) (occupancy : Nat) (timer : PassTimer) : State :=
  settle
    { inService with
      gate := { inService.gate with queue := q, occupancy := occupancy, passTimer := timer } }

/-- First example, 1,900 ms: ENTER_B enters P. -/
theorem test_enter_head :
    let t := run (.enter .b) (withGrants [grantOf .b 89 false, grantOf .a 13 false] 0 (.running 6143))
    gateState t = .passing .b ∧ t.gate.passTimer = .stopped ∧ t.gate.occupancy = 1 := by decide +kernel

/-- Second example: a third person is a TAILGATE. -/
theorem test_enter_tailgate :
    let t := run (.enter .a) (withGrants [grantOf .a 13 true] 1 .stopped)
    gateState t = .alarm .tailgate ∧ t.gate.occupancy = 2 ∧ t.gate.leaf = .close := by decide +kernel

/-- First example, 3,100 ms: PASSED_A consumes P, and the leaves turn by way of close. -/
theorem test_passed_consumes :
    let t := run (.passed .a) (withGrants [grantOf .b 89 true, grantOf .a 13 false] 1 .stopped)
    gateState t = .opened .a ∧ t.gate.passTimer = .running 8000 ∧
      t.gate.leafGiven = [.close, .openToward .a, .close, .openToward .b] ∧ t.gate.indicator = ⟨.go, .ready⟩ ∧
      t.journal.counters.passages = 1 := by decide +kernel

/-- R142, R136: an alarm in CLOSED gives close once more, and so does its change of kind and, in
OUT_OF_SERVICE, its raising. -/
theorem test_close_given_anew :
    let raised := run .occupiedLong inService
    raised.gate.leafGiven = [.close, .close] ∧
      (run .forced raised).gate.leafGiven = [.close, .close, .close] ∧
      (run .occupiedLong raised).gate.leafGiven = [.close, .close] ∧
      (run .forced State.reset).gate.leafGiven = [.close, .close] := by decide +kernel

/-- Second example: CLEAR ends the TAILGATE, and the head gets the full window. -/
theorem test_clear_ends_alarm :
    let s := withGrants [grantOf .a 13 true] 0 .stopped
    let t := run .clear { s with gate := { s.gate with alarm := some .tailgate } }
    gateState t = .opened .a ∧ t.gate.passTimer = .running 8000 ∧ t.gate.leaf = .openToward .b := by
  decide +kernel

/-- R136: FORCED pauses the running pass timer, and OCCUPIED_LONG is OBSTRUCTED. -/
theorem test_forced_and_occupied :
    let t := run .forced (withGrants [grantOf .a 13 false] 0 (.running 500))
    t.gate.alarm = some .forced ∧ t.gate.passTimer = .paused 500 ∧
      gateState (run .occupiedLong inService) = .alarm .obstructed := by decide +kernel

/-- First example, expiry taken first: the UNUSED record and sighting of Q, and the gate CLOSED. -/
theorem test_pass_timer_expiry :
    let t := run .passTimerExpiry (withGrants [grantOf .a 13 false] 0 (.running 1))
    gateState t = .closed ∧ t.gate.leaf = .close ∧ t.journal.counters.unused = 1 ∧
      t.journal.records.map (fun r => (r.kind, r.side, r.tcAfter, r.flags)) =
        [(.unused, .a, some 13, noFlags)] ∧
      t.sightings.map (fun e => (e.sighting.kind, e.sighting.base, e.sighting.result,
        e.sighting.side)) = [(.unused, 13, 13, .a)] := by decide +kernel

/-- First example, 2,364 ms: STOP ends, and side B shows GO. -/
theorem test_stop_timer :
    let s := withGrants [grantOf .b 89 true, grantOf .a 13 false] 1 .stopped
    (run (.stopTimerExpiry .b)
      { s with gate := { s.gate with stopTimer := ⟨none, some ⟨1, .wait⟩⟩ } }).gate.indicator =
      ⟨.wait, .go⟩ := by decide +kernel

/-- Third example: EMERG withdraws V and W under EMERGENCY, the head first. -/
theorem test_emerg_asserted :
    let t := run .emergAsserted (withGrants [grantOf .b 204 false, grantOf .a 57 false] 0 (.running 100))
    gateState t = .free ∧ t.gate.indicator = ⟨.free, .free⟩ ∧
      t.journal.records.map (fun r => (r.kind, r.tcAfter, r.flags.emergency)) =
        [(.unused, some 204, true), (.unused, some 57, true)] := by decide +kernel

/-- Third example: EMERG released with the flag clear gives CLOSED. -/
theorem test_emerg_released :
    gateState (run .emergReleased (run .emergAsserted inService)) = .closed := by decide +kernel

/-! ### Management requests -/

/-- The gate as delivered, KEYLOAD asserted by the requests that carry it: no line key stands. -/
def answerPayload (t : State) : Option (List Byte) := t.ring.sending.map (fun x => x.frame.payload)

/-- DESCRIBE is answered DONE with 46 bytes of data, the vendor and part first. -/
theorem test_describe :
    ((answerPayload (run (.describe (requestFrameOf 1 0 [])) inService)).map
      (fun p => (p.take 6, p.length))) = some ([1, 0, 0x2F, 0x6E, 0x03, 0x16], 48) := by decide +kernel

/-- STATUS: gate CLOSED (1), no alarm, mode BOTH (3), in service (1), JOINED, both channels POLLING. -/
theorem test_status :
    ((answerPayload (run (.status (requestFrameOf 2 0 [])) inService)).map
      (fun p => (p.take 11, (p.drop 16).take 2, p.length))) =
      some ([2, 0, 1, 0, 0, 0, 0, 0, 3, 1, 1], [1, 1], 62) := by decide +kernel

/-- COUNTERS carries the ten counters: 9 of 4 bytes and the fare total of 8. -/
theorem test_counters :
    (answerPayload (run (.counters (requestFrameOf 3 0 [])) inService)).map List.length = some 46 := by
  decide +kernel

/-- COUNTERS_CLEAR leaves every counter at 0. -/
theorem test_counters_clear :
    (run (.countersClear (requestFrameOf 4 0 []) true)
      { inService with
        journal := { inService.journal with counters := { Counters.zero with exits := 4 } } }).journal.counters =
      Counters.zero := by decide +kernel

/-- SETUP: the example of chapter 10, accepted uncoded; and zone 16 is BAD_VALUE. -/
theorem test_setup :
    (run (.setup (requestFrameOf 5 0 [0, 8, 2, 1, 1]) true) inService).store.setup =
      some ⟨8, 2, .entry, .inService⟩ ∧
    answerPayload (run (.setup (requestFrameOf 5 0 [0, 8, 16, 1, 1]) true) inService) =
      some [5, 9] := by decide +kernel

/-- GATE FREE_ON enters FREE. -/
theorem test_free_on :
    gateState (run (.gateFreeOn (requestFrameOf 6 0 [1]) true) inService) = .free := by decide +kernel

/-- GATE FREE_OFF leaves FREE. -/
theorem test_free_off :
    gateState (run (.gateFreeOff (requestFrameOf 6 0 [2]) true)
      { inService with gate := { inService.gate with freeFlag := true } }) = .closed := by decide +kernel

/-- GATE ALARM_RELEASE clears FORCED. -/
theorem test_alarm_release :
    gateState (run (.gateAlarmRelease (requestFrameOf 6 0 [3]) true)
      { inService with gate := { inService.gate with alarm := some .forced } }) = .closed := by
  decide +kernel

/-- GATE with another action is BAD_VALUE. -/
theorem test_gate_bad_action :
    answerPayload (run (.gateActionBadValue (requestFrameOf 6 0 [4]) true) inService) = some [6, 9] := by
  decide +kernel

/-- RESTART leaves the decoder RESTART_PENDING. -/
theorem test_restart :
    (run (.restart (requestFrameOf 7 0 []) true) inService).decoder.state = .restartPending := by
  decide +kernel

/-- LOAD_BEGIN of a FARE image opens the load bank, which is Y while X is ACTIVE. -/
theorem test_load_begin :
    (run (.loadBegin (requestFrameOf 8 0 ([1] ++ word 190)) true) inService).loader =
      some ⟨.fare, .y, 190, 0, .data⟩ := by decide +kernel

/-- A LOAD_DATA out of order breaks off the load: BAD_SEQUENCE. -/
theorem test_load_data_out_of_order :
    let t := run (.loadData (requestFrameOf 9 0 (word 64 ++ [2, 1, 2])) true)
      { inService with loader := some ⟨.fare, .y, 190, 0, .data⟩ }
    t.loader = none ∧ answerPayload t = some [9, 5] := by decide +kernel

/-- A LOAD_END before the whole image is BAD_SEQUENCE. -/
theorem test_load_end_incomplete :
    answerPayload (run (.loadEnd (requestFrameOf 10 0 (List.replicate 8 0)) true)
      { inService with loader := some ⟨.fare, .y, 190, 64, .data⟩ }) = some [10, 5] := by decide +kernel

/-- A key of the tests. -/
def lineEntry (version : Nat) : KeyEntry := ⟨0x11, .line, version⟩

/-- The keys of the example of chapter 10, with slot 7 LINE 1 LOCKED and slot 6 LINE 2. -/
def keyedGate : State :=
  { inService with
    keys := (inService.keys.set 7 (.locked (lineEntry 1))).set 6 (.loaded ⟨0x22, .line, 2⟩) }

/-- R179: the LINE slot of the highest version serves. -/
theorem test_line_key : lineKey keyedGate = some 0x22 := by decide +kernel

/-- KEY_WRITE, uncoded at a gate without a line key: the change is asked. -/
theorem test_key_write :
    (run (.keyWrite (requestFrameOf 11 0 ([0, 1, 3] ++ toBE 16 0x33)) true) inService).decoder.change =
      some ⟨0, .loaded ⟨0x33, .cardAuth, 3⟩⟩ := by decide +kernel

/-- A request 15 s behind line time is STALE once a line key stands. -/
theorem test_key_lock_stale :
    answerPayload (run (.keyLock (requestFrameOf 12 777599985 [6]) true) keyedGate) = some [12, 2] := by
  decide +kernel

/-- A code that names no request is UNKNOWN, and an empty payload BAD_VALUE. -/
theorem test_unknown_request :
    answerPayload (run (.unknownRequest (requestFrameOf 13 0 [])) inService) = some [13, 10] ∧
    answerPayload (run (.unknownRequest (buildFrame kindRequest 0 .a 3 [])) inService) =
      some [0, 9] := by decide +kernel

/-- A KEY_LOCK under way completes: the slot is LOCKED, and the answer carries no key. -/
theorem test_change_done :
    let t := run .nonvolatileWriteDone
      { inService with
        ring := { inService.ring with held := 1 }
        keys := inService.keys.set 6 (.loaded (lineEntry 2))
        decoder :=
          { state := .working, change := some ⟨6, .locked (lineEntry 2)⟩
            inHand := some ⟨.keyLock, 3, 0, [6], List.replicate 8 0, false⟩ } }
    slotAt t 6 = .locked (lineEntry 2) ∧ answerPayload t = some [12, 0, 6, 3, 2, 2] := by decide +kernel

/-! ### Restart and power -/

/-- The RESTART answer of gate 3 leaving ring-out. -/
def restarting : State :=
  { inService with
    ring := { inService.ring with sending := some ⟨answerFrame 3 7 .done [], .answer⟩ }
    decoder := { state := .restartPending, inHand := none, change := none } }

/-- R158, R23: repeater mode for 2 ms, and a side that polled waits for removal. -/
theorem test_warm_restart :
    let t := run .warmRestart restarting
    t.ring.repeater = true ∧ t.ring.restartPeriod = some 2 ∧ t.chans.a = awaitChannel ∧
      t.decoder.state = .idle := by decide +kernel

/-- R159: the end of the restart period ends repeater mode at once when no frame is passing. -/
theorem test_restart_period :
    (run (.restartPeriodExpiry false) (run .warmRestart restarting)).ring.repeater = false ∧
      (run (.restartPeriodExpiry true) (run .warmRestart restarting)).ring.repeater = true := by
  decide +kernel

/-- R159: the frame boundary ends repeater mode, except at gate number 0 (R158). -/
theorem test_repeater_exit :
    (run .repeaterModeExit
      { inService with ring := { inService.ring with repeater := true } }).ring.repeater = false ∧
    (run .repeaterModeExit
      { inService with
        ring := { inService.ring with repeater := true, gateNo := 0 } }).ring.repeater = true := by
  decide +kernel

/-- R158: RST holds the part in repeater mode. -/
theorem test_rst_held :
    let t := run .rstAsserted inService
    t.power = .held ∧ t.ring.repeater = true := by decide +kernel

/-- R144, R178: a cold start under EMERG is FREE with its key slots kept. -/
theorem test_cold_start :
    let t := run (.coldStart 3 false) { keyedGate with emerg := true }
    gateState t = .free ∧ t.gate.leaf = .free ∧ t.keys = keyedGate.keys ∧ t.ring.gateNo = 3 := by
  decide +kernel

/-- R178: the loss of power keeps the key slots. -/
theorem test_power_loss : (run .powerLoss keyedGate).keys = keyedGate.keys := by decide +kernel

/-- The reset state follows R144 and R150: OUT_OF_SERVICE, closed and ISOLATED. -/
theorem test_reset :
    gateState State.reset = .outOfService ∧ State.reset.gate.leaf = .close ∧
      State.reset.ring.joined = false := by decide +kernel

/-! ### Ill-formed commands, one for each check of WellFormed -/

/-- A frame whose CRC is wrong. -/
def badFrame : RingFrame := { beaconFrame 5 with crc := 0 }

theorem test_ill_formed_answer_size :
    (Instr.airAnswerArrival .a (.good (.data (List.replicate 17 0)))).wellFormed = false := by decide

theorem test_ill_formed_crc : (Instr.beacon badFrame).wellFormed = false := by decide +kernel

theorem test_ill_formed_length :
    (Instr.frameForwarded (buildFrame kindAnswer 9 .a 0 (List.replicate 97 0))).wellFormed = false := by
  decide +kernel

theorem test_ill_formed_kind :
    (Instr.sightingArrival noticeFrame).wellFormed = false ∧
      (Instr.cloneNoticeArrival (beaconFrame 5)).wellFormed = false := by decide +kernel

theorem test_ill_formed_beacon_sender :
    (Instr.beacon (buildFrame kindBeacon 4 .a 31 (toBE 4 5))).wellFormed = false := by decide +kernel

theorem test_ill_formed_beacon_destination :
    (Instr.beacon (buildFrame kindBeacon 0 .a 3 (toBE 4 5))).wellFormed = false := by decide +kernel

theorem test_ill_formed_own_frame :
    (Instr.frameStripped (beaconFrame 5)).wellFormed = false := by decide +kernel

theorem test_ill_formed_dropped :
    (Instr.frameDropped (frameWire (beaconFrame 5))).wellFormed = false := by decide +kernel

theorem test_ill_formed_request_sender :
    (Instr.answerQueueFullDrop (buildFrame kindRequest 2 .a 3 (List.replicate 13 0))).wellFormed =
      false := by decide +kernel

theorem test_ill_formed_request_code :
    (Instr.describe (requestFrameOf 2 0 [])).wellFormed = false ∧
      (Instr.keyLock (requestFrameOf 11 0 [])  true).wellFormed = false := by decide +kernel

theorem test_ill_formed_gate_action :
    (Instr.gateFreeOn (requestFrameOf 6 0 [2]) true).wellFormed = false ∧
      (Instr.gateFreeOff (requestFrameOf 6 0 [1]) true).wellFormed = false ∧
      (Instr.gateAlarmRelease (requestFrameOf 6 0 [1]) true).wellFormed = false ∧
      (Instr.gateActionBadValue (requestFrameOf 6 0 [1]) true).wellFormed = false := by decide +kernel

theorem test_ill_formed_unknown_request :
    (Instr.unknownRequest (requestFrameOf 12 0 [])).wellFormed = false := by decide +kernel

/-- Commands with the operands of their events are well formed. -/
theorem test_well_formed :
    (Instr.beacon (beaconFrame 5)).wellFormed = true ∧
      (Instr.gateFreeOn (requestFrameOf 6 0 [1]) true).wellFormed = true ∧
      (Instr.sightingArrival (sightingFrame (seen .commit 70 71))).wellFormed = true ∧
      (Instr.unknownRequest (requestFrameOf 13 0 [])).wellFormed = true ∧
      (Instr.frameDropped [1, 2]).wellFormed = true := by decide +kernel

/-! ### Witnesses: the hypotheses of each obligation hold together -/

/-- An EMPTY slot is not LOCKED. -/
theorem not_locked {s : State} {n : Nat} (h : slotAt s n = .empty) : ∀ e, slotAt s n ≠ .locked e := by
  intro e; rw [h]; exact nofun

theorem not_paused {s : State} {n : Nat} (h : s.gate.passTimer = .running n) :
    ∀ left, s.gate.passTimer ≠ .paused left := by
  intro left; rw [h]; exact nofun

theorem in_service_shows : Shows inService :=
  ⟨by decide +kernel, by decide +kernel, by decide +kernel, by decide +kernel⟩

theorem in_service_capacities : Capacities inService := by constructor <;> decide

theorem test_witness_StepTakesTheFrontCommand :
    ({ inService with pending := [.forced, .clear] } : State).pending = Instr.forced :: [.clear] := rfl

/-- A part that does not run; one with no expiry due, and one with the expiry of its beacon watch. -/
theorem test_witness_IdleStepPassesOneMillisecond :
    (inService.pending = [] ∧ inService.power = .running) ∧
    (({ inService with power := .held } : State).pending = [] ∧
      ({ inService with power := .held } : State).power ≠ .running) ∧
    dueExpiries (moveTimers inService) = [] ∧
    (let s := moveTimers { inService with ring := { inService.ring with watch := some 1 } }
     dueExpiries s = [.beaconWatchExpiry] ∧ exec .beaconWatchExpiry s = .next (run .beaconWatchExpiry s) ∧
       dueExpiries (run .beaconWatchExpiry s) = []) :=
  ⟨⟨rfl, rfl⟩, ⟨rfl, by decide⟩, by decide +kernel, by decide +kernel, rfl, by decide +kernel⟩

/-- A merge state with requests of the Tap Controllers and the loader at a port, and the mark. -/
def atPort (m : MergeState) (a b : Option TapAsk) (l : Option LoaderAsk) (ask : Bool) (mark : Side) : State :=
  { inService with
    hot := { inService.hot with merge := m }
    arb := { tap := ⟨a, b⟩, loader := l, merge := ask, inUse := none, mark := mark } }

/-- The clauses on ring-out, the merge, an engaged channel, a local addition at a free port, a port in use,
and a free port with any requests. -/
theorem test_witness_EventEndFrame :
    (restarting.ring.sending.isSome ∧ inService.hot.merge = .idle ∧
      ((tapping .a .reading none id).chans.get .a).state = .engaged ∧ inService.hot.waiting = [] ∧
      inService.arb.inUse = none ∧
      ({ inService with hot := { inService.hot with waiting := [cardUid] } } : State).hot.waiting =
        [cardUid]) ∧
    (∀ m a b l ask mark, let s := atPort m a b l ask mark
      s.arb.inUse = none ∧ s.arb.tap.get .a = a ∧ s.arb.tap.get Side.a.other = b ∧ s.arb.mark = mark ∧
        s.arb.loader = l ∧ s.hot.merge = m ∧ (granted .merge s).arb.inUse.isSome ∧
        (granted .merge s).arb.tap = ⟨a, b⟩ ∧ (granted .merge s).hot.merge = m) ∧
    (let s := withGrants [grantOf .b 89 false] 0 (.running 500)
     let t : State := { s with gate := { s.gate with queue := [grantOf .a 13 false] } }
     leafOf s.gate.leafCause.state = .openToward .a ∧ leafOf (gateState s) = .openToward .a ∧
       leafOf t.gate.leafCause.state = .openToward .a ∧ leafOf (gateState t) = .openToward .b ∧
       inService.gate.leafCause = ⟨gateState inService, inService.gate.alarm⟩) ∧
    ∀ y, leafOf (gateState inService) ≠ .openToward y :=
  ⟨by decide, fun _ _ _ _ _ _ => ⟨rfl, rfl, rfl, rfl, rfl, rfl, rfl, rfl, rfl⟩, by decide +kernel,
    fun y => by cases y <;> decide +kernel⟩

/-- R174, R117: of two requests that wait, that of the marked side; the mark turns and the merge pauses. -/
theorem test_port_alternates :
    let t := settle (atPort .merging (some .lookup) (some .check1) none true .b)
    t.arb.inUse = some (.tap .b .check1) ∧ t.arb.mark = .a ∧ t.hot.merge = .suspended := by decide +kernel

/-- A step of a state whose outputs follow it. -/
theorem test_witness_LeavesAndIndicatorsFollowTheState :
    (inService.power = .running → Shows inService) ∧ step inService = .next (tick inService) :=
  ⟨fun _ => in_service_shows, rfl⟩

/-- A gate in OPEN with a head grant of side B, and an idle step. -/
theorem test_witness_LeavesOpenOnlyForTheHeadGrant :
    let s := withGrants [grantOf .b 89 false] 0 (.running 500)
    (s.power = .running → Shows s) ∧ step s = .next (tick s) ∧ (tick s).power = .running ∧
      gateState (tick s) ≠ .free ∧ (tick s).gate.leaf = .openToward .a :=
  ⟨fun _ => ⟨by decide +kernel, by decide +kernel, by decide +kernel, by decide +kernel⟩, rfl,
    by decide +kernel, by decide +kernel, by decide +kernel⟩

theorem test_witness_CapacitiesAreKept :
    Capacities inService ∧ step inService = .next (tick inService) := ⟨in_service_capacities, rfl⟩

theorem test_witness_LockedKeySlotsNeverChange :
    step keyedGate = .next (tick keyedGate) ∧ slotAt keyedGate 7 = .locked (lineEntry 1) :=
  ⟨rfl, by decide⟩

/-- An idle step, and a step that takes LINE_TIME_ADVANCE. -/
theorem test_witness_LineTimeNeverDecreases :
    let s : State := { inService with pending := [.lineTimeAdvance] }
    ClockGood inService.clock ∧ step inService = .next (tick inService) ∧ s.clock = inService.clock ∧
      step s = .next (run .lineTimeAdvance inService) ∧
      (∀ gateNo passing rest, s.pending ≠ .coldStart gateNo passing :: rest) ∧
      (∀ rest, s.pending ≠ .powerLoss :: rest) :=
  ⟨⟨by decide, by decide⟩, rfl, rfl, rfl, (by intro _ _ _ h; cases h), by intro _ h; cases h⟩

/-- POLLING for the poll timer, AWAIT_REMOVAL for both timers. -/
theorem test_witness_ChannelTimersExpire :
    let s := { inService with chans := inService.chans.set .b awaitChannel }
    s.power = .running ∧ (s.chans.get .a).pollTimer.isSome ∧ (s.chans.get .a).state = .polling ∧
      (s.chans.get .b).pollTimer.isSome ∧ (s.chans.get .b).state = .awaitRemoval ∧
      (s.chans.get .b).fieldEmpty.isSome := by decide

/-- Block 0 of an ACTIVE card of key version 3. -/
def blockRead : List Byte := [0, 77, 1, 1] ++ toBE 2 60000 ++ [3, 1] ++ toBE 8 0

/-- A transaction whose channel awaits the answer of a command, with the two card keys of version 3. -/
def awaiting (st : TapState) (cmd : AirCommand) : State :=
  { tapping .a st (some ⟨cmd, 1⟩) id with
    keys :=
      (inService.keys.set 0 (.loaded ⟨0x41, .cardAuth, 3⟩)).set 1 (.locked ⟨0x42, .cardCode, 3⟩) }

/-- R26 to R28: SELECT, block 0 and the derivations, with both keys and without one. -/
theorem test_authenticating_entry :
    (run (.airAnswerArrival .a (.good (.data blockRead))) (awaiting .identifying (.read 0))).engines.a =
        some (.deriveAuth 0x41 0x42) ∧
      (run (.airAnswerArrival .a (.good (.data blockRead)))
        { awaiting .identifying (.read 0) with keys := inService.keys }).taps.a.record.refusal =
        some .noKey := by decide +kernel

/-- A WAKE in POLLING; SELECT and READ of block 0 outstanding; both card keys, and none. -/
theorem test_witness_CardFoundStartsATransaction :
    (inService.power = .running ∧ (inService.chans.get .a).answerTimer.isSome ∧
      (inService.chans.get .a).state = .polling ∧
      (inService.chans.get .a).outstanding = some ⟨.wake, 1⟩) ∧
    (∀ st cmd, let s := awaiting st cmd
      s.power = .running ∧ (s.chans.get .a).answerTimer.isSome ∧ (s.chans.get .a).state = .engaged ∧
        (s.chans.get .a).lost = false ∧ (s.chans.get .a).outstanding = some ⟨cmd, 1⟩ ∧
        (s.taps.get .a).state = st ∧ HoldsNothing s .a) ∧
    (blockRead.length = 16 ∧ blockKeyVersion blockRead = 3 ∧
      cardMaster (awaiting .identifying (.read 0)) .cardAuth 3 = some 0x41 ∧
      cardMaster (awaiting .identifying (.read 0)) .cardCode 3 = some 0x42 ∧
      cardMaster (awaiting .identifying (.read 0)) .cardAuth 4 = none) :=
  ⟨by decide, fun _ _ => ⟨rfl, rfl, rfl, rfl, rfl, rfl, ⟨rfl, rfl, rfl, rfl⟩⟩, by decide +kernel⟩

/-- A closed window; a WAKE window of the first and of the second attempt; one in AWAIT_REMOVAL. -/
theorem test_witness_WakeWindowsWithoutACard :
    (let s := { inService with
      chans := ⟨{ pollingChannel with outstanding := none, answerTimer := none },
        { pollingChannel with outstanding := some ⟨.wake, 2⟩ }⟩ }
     s.power = .running ∧ (s.chans.get .a).outstanding = none ∧ (s.chans.get .b).state = .polling ∧
       (s.chans.get .b).outstanding = some ⟨.wake, 2⟩ ∧ (s.chans.get .b).answerTimer.isSome) ∧
    (inService.chans.get .b).outstanding = some ⟨.wake, 1⟩ ∧
    (let s := { inService with
      chans := inService.chans.set .b
        { awaitChannel with outstanding := some ⟨.wake, 1⟩, answerTimer := some 5 } }
     s.power = .running ∧ (s.chans.get .b).state = .awaitRemoval ∧
       (s.chans.get .b).outstanding = some ⟨.wake, 1⟩ ∧ (s.chans.get .b).answerTimer.isSome) := by decide

/-- A transaction that holds nothing, by its record and an empty Recovery Table. -/
theorem holds_nothing (sd : Side) (st : TapState) (cmd : Option Outstanding) :
    HoldsNothing (tapping sd st cmd id) sd := by
  cases sd <;> exact ⟨rfl, rfl, rfl, rfl⟩



/-- A side enabled and, with the gate out of service, a side disabled; a transaction with a bank. -/
theorem test_witness_ExchangeEndedLeavesEngaged :
    let s := tapping .b .finishing (some ⟨.halt, 1⟩) (fun r => { r with bank := some .x })
    s.power = .running ∧ (s.chans.get .b).state = .engaged ∧
      (s.chans.get .b).outstanding = some ⟨.halt, 1⟩ ∧ sideEnabled s .b = true ∧
      sideEnabled { s with ring := { s.ring with duplicate := true } } .b = false ∧
      (s.taps.get .b).record.bank = some .x ∧
      ((tapping .b .finishing (some ⟨.halt, 1⟩) id).taps.get .b).record.bank = none := by decide +kernel

/-- A transaction whose hold runs out, with an image of equal bytes and the target slot as read. -/
def holdRunOut (first second : Byte) : State :=
  modTap .b (fun t => { t with hold := some 0 })
    (tapping .b .claiming none (fun r =>
      { r with target := some .a, journeyImage := some (List.replicate 32 9)
               blocks := [List.replicate 16 first, List.replicate 16 second] }))

/-- R40, R84: a block equal to the block as read is not written. -/
theorem test_unchanged_blocks_are_skipped :
    ((run (.claimHoldExpiry .b) (holdRunOut 9 0)).chans.b.outstanding.map Outstanding.cmd) =
        some (.write 2 (List.replicate 16 9)) ∧
      ((run (.claimHoldExpiry .b) (holdRunOut 9 9)).chans.b.outstanding.map Outstanding.cmd) =
        some (.read 1) := by decide +kernel

/-- A first block that differs, a second one alone, and none. -/
theorem test_witness_ClaimHoldExpiryIsTheWritePoint :
    (∀ x y, let s := holdRunOut x y
      s.power = .running ∧ (s.taps.get .b).state = .claiming ∧ (s.taps.get .b).ending = false ∧
        (s.taps.get .b).hold.isSome ∧ (s.chans.get .b).lost = false) ∧
    (let unequal := fun s block => composedBlock s .b block ≠ blockAsRead s .b block
     unequal (holdRunOut 0 0) (firstBlock (holdRunOut 0 0) .b) ∧
       ¬ unequal (holdRunOut 9 0) (firstBlock (holdRunOut 9 0) .b) ∧
       unequal (holdRunOut 9 0) (secondBlock (holdRunOut 9 0) .b) ∧
       ¬ unequal (holdRunOut 9 9) (secondBlock (holdRunOut 9 9) .b)) :=
  ⟨fun _ _ => ⟨rfl, rfl, rfl, rfl, rfl⟩, by decide +kernel⟩

/-- A card at the port, listed with an action or not at all. -/
def lookingUp (entries : List HotEntry) : State :=
  granted (.tap .b .lookup)
    { tapping .b .deciding none id with hot := { State.reset.hot with bank0 := entries } }

/-- A BLOCK action whose engine computes the code of its image. -/
def blocking : State :=
  { tapping .b .finishing none (fun r => { r with block0 := some blockRead }) with
    engines := ⟨none, some .blockIdentity⟩ }

/-- R37: the image written has status BLOCKED, and the fields around it as read. -/
theorem test_block_image :
    ((run (.codeEngineDone (.channel .b) false) blocking).taps.b.record.block0Image).map (·.take 12) =
      some ([0, 77, 1, 2] ++ toBE 2 60000 ++ [3, 1] ++ toBE 4 0) := by decide +kernel

/-- A UID not listed, listed REFUSE and listed BLOCK; and the engine of a BLOCK action. -/
theorem test_witness_HotlistLookupIsAnswered :
    ((lookingUp []).power = .running ∧ (lookingUp []).arb.inUse = some (.tap .b .lookup) ∧
      ((lookingUp []).chans.get .b).state = .engaged ∧ HoldsNothing (lookingUp []) .b ∧
      (lookupAnswer (lookingUp []).hot (tapUid (lookingUp []) .b)).action = none ∧
      (lookupAnswer (lookingUp [⟨cardUid, .refuse⟩]).hot (tapUid (lookingUp []) .b)).action =
        some .refuse ∧
      (lookupAnswer (lookingUp [⟨cardUid, .block⟩]).hot (tapUid (lookingUp []) .b)).action =
        some .block) ∧
    (blocking.power = .running ∧ blocking.engines.get .b = some .blockIdentity ∧
      (blocking.chans.get .b).state = .engaged ∧ (blocking.chans.get .b).lost = false ∧
      (tapBlock0 blocking .b).length = 16) :=
  ⟨⟨rfl, rfl, rfl, ⟨rfl, rfl, rfl, rfl⟩, by decide +kernel, by decide +kernel, by decide +kernel⟩,
    rfl, rfl, rfl, rfl, by decide⟩

/-- A transaction at check 1 with block 0 of an issuer. -/
def atCheckOne (issuer : Byte) : State :=
  granted (.tap .a .check1)
    (tapping .a .deciding none
      (fun r =>
        { r with
          bank := some .x
          block0 := some ([0, issuer, 1, 1] ++ toBE 2 60000 ++ [3, 1] ++ toBE 8 0) }))

/-- A transaction at check 5, of an expiry day, with its slots' classes and TCs and a Recovery Table. -/
def atCheckFive (expiry : Nat) (clsA clsB : SlotClass) (tcA tcB : Nat) (cs : List Context) : State :=
  granted (.tap .a .check5)
    { tapping .a .deciding none
        (fun r =>
          { r with
            bank := some .x, decisionTime := some 777600000
            block0 := some ([0, 77, 1, 1] ++ toBE 2 expiry ++ [3, 1] ++ toBE 8 0)
            classA := some clsA, classB := some clsB
            blocks := [toBE 3 tcA ++ List.replicate 13 0, List.replicate 16 0,
              toBE 3 tcB ++ List.replicate 13 0, List.replicate 16 0] }) with
      contexts := cs }

/-- A context of the card for a target slot, a base TC and a journey image. -/
def contextAt (target : SlotId) (base : Nat) (image : List Byte) : Context :=
  { uid := cardUid, side := .a, cls := 1, baseTc := base, target := target, journeyImage := image
    historyImage := none, confirmed := ⟨false, false⟩, fare := 0, balanceAfter := 1500
    flags := noFareFlags, created := 777599990, deadline := 777600010, holder := none, overdue := false }

/-- R31: on service day 8999 a card of that expiry passes, and one of the day before is refused. -/
theorem test_card_expiry :
    ((run (.fareBankRead .a) (atCheckFive 8998 .valid .uncoded 41 0 [])).taps.a.record.refusal) =
      some .cardExpired ∧
    ((run (.fareBankRead .a) (atCheckFive 8999 .valid .uncoded 41 0 [])).taps.a.record.refusal) =
      none := by decide +kernel

/-- R32, R80: a tap that landed is recovered and commits at once. -/
theorem test_recovery_of_a_landed_tap :
    let s := atCheckFive 60000 .valid .valid 42 41
      [contextAt .a 41 (toBE 3 42 ++ List.replicate 29 0)]
    let t := run (.fareBankRead .a) s
    t.journal.records.map JournalRecord.kind = [.recovered] ∧ t.contexts = [] ∧
      t.gate.queue.map Grant.tc = [42] := by decide +kernel

/-- Check 1 with a listed issuer and one that is not; at check 5 a card on and after its expiry, no coded
slot, a leading slot that is not valid, the slots leading alone, with the higher TC and on equal TCs; the
highest TC and the one before; contexts that have landed, not landed, and are of no use; and no context. -/
theorem test_witness_DecisionOrderToCheckEight :
    (∀ n, (atCheckOne n).power = .running ∧ (atCheckOne n).arb.inUse = some (.tap .a .check1) ∧
      ((atCheckOne n).chans.get .a).state = .engaged ∧ HoldsNothing (atCheckOne n) .a) ∧
    (blockFormat (tapBlock0 (atCheckOne 77) .a) = 1 ∧
      blockIssuer (tapBlock0 (atCheckOne 77) .a) ∈ (tapTable (atCheckOne 77) .a).issuers) ∧
    blockIssuer (tapBlock0 (atCheckOne 78) .a) ∉ (tapTable (atCheckOne 78) .a).issuers ∧
    (∀ x ca cb ta tb, let s := atCheckFive x ca cb ta tb []
      s.power = .running ∧ s.arb.inUse = some (.tap .a .check5) ∧
        (s.chans.get .a).state = .engaged ∧ HoldsNothing s .a ∧ s.contexts = []) ∧
    (∀ x ∈ [8998, 8999], blockExpiry (tapBlock0 (atCheckFive x .valid .uncoded 41 0 []) .a) = x) ∧
    serviceDay (tapNow (atCheckFive 8999 .valid .uncoded 41 0 []) .a)
      (tapTable (atCheckFive 8999 .valid .uncoded 41 0 []) .a).dayStart = 8999 ∧
    (let r := fun ca cb ta tb => ((atCheckFive 8999 ca cb ta tb []).taps.get .a).record
     (∀ l, slotCoded (recordClass (r .uncoded .uncoded 0 0) l) = false) ∧
       Leads (r .codedBad .valid 42 41) .a ∧ recordClass (r .codedBad .valid 42 41) .a ≠ some .valid ∧
       Leads (r .valid .uncoded 41 0) .a ∧ Leads (r .valid .valid 41 42) .b ∧
       Leads (r .valid .valid 42 42) .a ∧ recordClass (r .valid .valid 42 42) .a = some .valid ∧
       slotTc (r .valid .uncoded 16777215 0) .a = 16777215 ∧
       slotTc (r .valid .uncoded 16777214 0) .a ≠ 16777215) ∧
    (let c := contextAt .a 41 (toBE 3 42 ++ List.replicate 29 0)
     let s := fun ta tb => atCheckFive 60000 .valid .valid ta tb [c]
     (∀ ta tb, c ∈ (s ta tb).contexts ∧ c.uid = tapUid (s ta tb) .a ∧ c.side = .a ∧ c.holder = none ∧
       c.overdue = false ∧ HoldsNothing (s ta tb) .a) ∧
     (slotTc ((s 42 41).taps.get .a).record .a = c.baseTc + 1 ∧
       slotBytes ((s 42 41).taps.get .a).record .a = c.journeyImage) ∧
     (SlotId.b ≠ c.target ∧ slotTc ((s 40 41).taps.get .a).record .b = c.baseTc) ∧
     slotTc ((s 40 43).taps.get .a).record .b ≠ c.baseTc) :=
  ⟨fun _ => ⟨rfl, rfl, rfl, ⟨rfl, rfl, rfl, rfl⟩⟩, by decide +kernel, by decide +kernel,
    fun _ _ _ _ _ => ⟨rfl, rfl, rfl, ⟨rfl, rfl, rfl, rfl⟩, rfl⟩, by decide +kernel, by decide +kernel,
    ⟨fun l => by cases l <;> rfl, by unfold Leads; decide +kernel, by decide +kernel,
      by unfold Leads; decide +kernel, by unfold Leads; decide +kernel, by unfold Leads; decide +kernel,
      by decide +kernel, by decide +kernel, by decide +kernel⟩,
    fun _ _ => ⟨.head _, rfl, rfl, rfl, rfl, ⟨rfl, rfl, rfl, rfl⟩⟩, by decide +kernel, by decide +kernel,
    by decide +kernel⟩

/-- A transaction at check 10 with a card OUT of a balance, at side A. -/
def atCheckTen (balance : Int) : State :=
  granted (.tap .a .check10)
    (tapping .a .deciding none
      (fun r =>
        { r with
          bank := some .x, decisionTime := some 777600000, validSlot := some .a
          blocks := [journeyBytes { chainCard with balance := balance }, [], [], []] }))

/-- A transaction at check 9 with a card of TC 41 and the entries of the Sighting Table. -/
def atCheckNine (entries : List SightEntry) : State :=
  { atCheckTen 1500 with
    arb := { (atCheckTen 1500).arb with inUse := some (.tap .a .check9) }, sightings := entries }

/-- An UNUSED sighting of a TC, made now at side A. -/
def unusedOf (tc : Nat) : SightEntry :=
  ⟨{ seen .unused tc tc with source := ⟨3, .a⟩ }, false, false, none⟩

/-- A transaction whose composed record gets its code. -/
def composing : State :=
  { tapping .a .deciding none
      (fun r =>
        { r with
          codeKey := some 5, cardTc := some 41, target := some .b
          decision := some ⟨.entry, 0, 1500, noFareFlags, 41, 42⟩ }) with
    engines := ⟨some (.compose [1] none), none⟩ }

/-- R33, R43, R104: check 9 notes a reuse and asks one more read; its event commits at once, with no fare. -/
theorem test_reuse_commits :
    let m := run (.fareBankRead .a) (atCheckNine [unusedOf 41])
    let t := run (.fareBankRead .a) m
    m.arb.inUse = some (.tap .a .check11) ∧ m.journal.records = [] ∧ m.gate.queue = [] ∧
    t.journal.records.map (fun r => (r.kind, r.fare)) = [(.reuse, none)] ∧
      t.journal.counters.reuses = 1 ∧ t.gate.queue.map Grant.tc = [41] := by decide +kernel

/-- R38: CLAIMING with the hold of 20 ms, the INTENT pinned. -/
theorem test_claiming_entry :
    let t := run (.codeEngineDone (.channel .a) false) composing
    t.taps.a.state = .claiming ∧ t.taps.a.hold = some 20 ∧
      t.sightings.map (fun e => (e.sighting.kind, e.sighting.base, e.pin)) = [(.intent, 41, true)] := by
  decide +kernel

theorem two_states {x a b : TapState} (h : x ∈ [a, b]) : x = a ∨ x = b := by simpa using h

/-- The same with an entry in the table, and the other side in a state with the same card. -/
def standingAt (st : TapState) (pin : Bool) (x : Sighting) : State :=
  { composing with
    sightings := [⟨x, false, pin, none⟩]
    taps := composing.taps.set .b
      { state := st, ending := false, hold := none
        record := { TapRecord.empty with uid := some cardUid } } }

/-- At check 9 a reuse and none; at check 10 an accept and a refusal of the Fare Unit; at check 11 every
reservation at its last free place and without one; a new entry, a full table, a standing entry of no
finding and one of a finding; the other side in CLAIMING and in WRITING for the UID, its INTENT in the entry;
and the second read of a reuse. -/
theorem test_witness_DecisionOrderFromCheckNine :
    (∀ l, (atCheckNine l).power = .running ∧ (atCheckNine l).arb.inUse = some (.tap .a .check9) ∧
      ((atCheckNine l).chans.get .a).state = .engaged ∧ HoldsNothing (atCheckNine l) .a) ∧
    (let s := atCheckNine [unusedOf 41]
     let e := unusedOf 41
     entryOf (purgeSightings s) (tapUid s .a) = some e ∧ e.sighting.kind = .unused ∧
       e.sighting.side = .a ∧ e.sighting.result = (tapCard s .a).tc ∧ e.contested = false ∧
       ageOf s e.sighting.time < (tapTable s .a).reuseWindow ∧ gateState s = .closed ∧
       (s.chans.get .a).lost = false ∧ (s.taps.get .a).record.cloneMark = none ∧
       (s.taps.get .a).ending = false ∧ inFlight s .b (tapUid s .a) = false ∧
       s.gate.reserved + s.gate.queue.length < 2 ∧ 32 < journalAvailable s.journal) ∧
    (unusedOf 40).sighting.result ≠ (tapCard (atCheckNine []) .a).tc ∧
    (∀ b, (atCheckTen b).power = .running ∧ (atCheckTen b).arb.inUse = some (.tap .a .check10) ∧
      ((atCheckTen b).chans.get .a).state = .engaged ∧ HoldsNothing (atCheckTen b) .a) ∧
    (fareUnit (fareInputOf (atCheckTen 1500) .a) =
      .accept ⟨.entryNew, 0, 1500, ⟨false, false, false, false⟩⟩) ∧
    fareUnit (fareInputOf (atCheckTen 99) .a) = .refusal .lowBalance ∧
    (composing.power = .running ∧ composing.engines.get .a = some (.compose [1] none) ∧
      (composing.taps.get .a).record.decision = some ⟨.entry, 0, 1500, noFareFlags, 41, 42⟩ ∧
      (composing.taps.get .a).record.recovery ≠ some .committed ∧
      (composing.taps.get .a).record.target = some .b ∧ HoldsNothing composing .a ∧
      inFlight composing .b (tapUid composing .a) = false) ∧
    ((∀ n ∈ [0, 1], n + composing.gate.queue.length < 2) ∧ 2 ≤ 2 + composing.gate.queue.length ∧
      journalAvailable { composing.journal with reserved := 991 } = 33 ∧
      journalAvailable { composing.journal with reserved := 992 } = 32) ∧
    (IntentPlace { composing.ring with intentReserved := 31 } [] ∧
      32 ≤ insertionUsed { composing.ring with intentReserved := 32 } ∧
      IntentPlace
        { composing.ring with intentReserved := 31, insertion := [.sighting (seen .commit 1 2)] } []) ∧
    (let x := ownIntent .a 41 composing
     let e : SightEntry := ⟨{ seen .commit 40 41 with uid := 5 }, false, false, none⟩
     IntentTable x [] [⟨x, false, true, none⟩] ∧
       (∃ table, IntentTable x (List.replicate 2048 e) table) ∧
       (∃ table, IntentTable x [⟨seen .commit 40 41, false, false, none⟩] table) ∧
       entryFinding .a 41 (standingAt .idle false (seen .commit 40 41)) = none ∧
       entryFinding .a 41 (standingAt .idle false (seen .commit 41 42)) =
         some (.sameState, ⟨seen .commit 41 42, false⟩)) ∧
    (∀ st ∈ [TapState.claiming, .writing],
      let m := standingAt st true { seen .intent 41 42 with source := ⟨3, .b⟩, side := .b }
      inFlight m .b (tapUid m .a) = true ∧ (m.taps.get .b).state = st ∧
        IntentEnters .a 41 m m.sightings ∧ (entryFinding .a 41 m).map Prod.fst = some .contest ∧
        (m.sightings.map (fun e => e.sighting.uid)).Nodup) ∧
    (let s := granted (.tap .a .check11) composing
     s.arb.inUse = some (.tap .a .check11) ∧ (s.chans.get .a).lost = false ∧ HoldsNothing s .a) :=
  ⟨fun _ => ⟨rfl, rfl, rfl, ⟨rfl, rfl, rfl, rfl⟩⟩, by decide +kernel, by decide +kernel,
    fun _ => ⟨rfl, rfl, rfl, ⟨rfl, rfl, rfl, rfl⟩⟩, by decide +kernel, by decide +kernel,
    ⟨rfl, rfl, rfl, by decide, rfl, ⟨rfl, rfl, rfl, rfl⟩, by decide +kernel⟩, by decide +kernel,
    ⟨.free (by decide), by decide,
      .displaced [] (.sighting (seen .commit 1 2)) [] (by decide) rfl (by decide) (by decide)⟩,
    ⟨.new (by decide) (by decide),
    ⟨_, .evicted [] ⟨{ seen .commit 40 41 with uid := 5 }, false, false, none⟩ (List.replicate 2047 _)
      (fun e h => by rw [List.eq_of_mem_replicate h]; decide +kernel)
      (Nat.le_of_eq List.length_replicate.symm) rfl rfl (by decide)
      (fun _ h _ => Nat.le_of_eq (by rw [List.eq_of_mem_replicate h]))⟩,
    ⟨_, .standing ⟨_, .head _, by decide +kernel⟩⟩, by decide, by decide⟩,
    fun st h => by
      rcases two_states h with rfl | rfl <;>
        exact ⟨by decide, rfl, ⟨fun _ => rfl, fun h => (h ⟨_, rfl, by decide⟩).elim⟩, by decide, by decide⟩,
    rfl, rfl, ⟨rfl, rfl, rfl, rfl⟩⟩

/-- Block 0 of a status and class with the identity code under a card code key of zeros. -/
def codedBlock (status cls : Byte) : List Byte :=
  let fields := [0, 77, cls, status] ++ toBE 2 60000 ++ [3, 1] ++ toBE 4 0
  fields ++ identityCode 0 cardUid fields

/-- A transaction whose engine has verified block 0. -/
def atIdentity (block : List Byte) : State :=
  { tapping .a .deciding none (fun r => { r with block0 := some block }) with
    engines := ⟨some .identity, none⟩ }

/-- A code that fails; a BLOCKED card; ACTIVE cards of the classes up to 7 and above; another status. -/
theorem test_witness_IdentityCodeIsJudged :
    (∀ b, (atIdentity b).power = .running ∧ (atIdentity b).engines.get .a = some .identity ∧
      ((atIdentity b).chans.get .a).state = .engaged ∧ HoldsNothing (atIdentity b) .a) ∧
    (let s := atIdentity (List.replicate 16 0)
     blockCode (tapBlock0 s .a) ≠ identityCode (tapCodeKey s .a) (tapUid s .a) (tapBlock0 s .a)) ∧
    (∀ p ∈ [((2 : Byte), (7 : Byte)), (1, 7), (1, 8), (3, 1), (0, 1)],
      let s := atIdentity (codedBlock p.1 p.2)
      blockCode (tapBlock0 s .a) = identityCode (tapCodeKey s .a) (tapUid s .a) (tapBlock0 s .a) ∧
        blockStatus (tapBlock0 s .a) = p.1.toNat ∧ blockClass (tapBlock0 s .a) = p.2.toNat) :=
  ⟨fun _ => ⟨rfl, rfl, rfl, ⟨rfl, rfl, rfl, rfl⟩⟩, by decide +kernel,
    List.forall_mem_cons.2 ⟨⟨by decide +kernel, by decide +kernel⟩,
      List.forall_mem_cons.2 ⟨⟨by decide +kernel, by decide +kernel⟩,
        List.forall_mem_cons.2 ⟨⟨by decide +kernel, by decide +kernel⟩,
          List.forall_mem_cons.2 ⟨⟨by decide +kernel, by decide +kernel⟩,
            List.forall_mem_cons.2 ⟨⟨by decide +kernel, by decide +kernel⟩, fun _ h => nomatch h⟩⟩⟩⟩⟩⟩

/-- A transaction whose engine has verified a card response to challenges of one byte each. -/
def atResponse (response : List Byte) : State :=
  { tapping .a .authenticating none
      (fun r =>
        { r with authKey := some 5, cardChallenge := [1], partChallenge := [2]
                 cardResponse := response }) with
    engines := ⟨some .cardResponse, none⟩ }

/-- A transaction whose engine computes. -/
def engineAt (job : ChanJob) : State := { tapping .a .reading none id with engines := ⟨some job, none⟩ }

/-- R28: with slot B classed, DECIDING is entered with its bank reference. -/
theorem test_deciding_entry :
    let t := run (.codeEngineDone (.channel .a) false) (engineAt (.slotCode .b))
    t.taps.a.state = .deciding ∧ t.taps.a.record.bank = some .x ∧ t.store.bankX.refs = 1 ∧
      t.taps.a.record.decisionTime = some 777600000 := by decide +kernel

/-- Each computation; a response that verifies, and one that does not; the answers of both passes and the
READs of blocks 3 and 4. -/
theorem test_witness_CardResponseIsJudged :
    (∀ job, (engineAt job).power = .running ∧ ((engineAt job).chans.get .a).state = .engaged ∧
      ((engineAt job).chans.get .a).lost = false ∧ (engineAt job).engines.get .a = some job ∧
      bankIn (engineAt job).store .active = some .x) ∧
    (∀ r, (atResponse r).power = .running ∧ (atResponse r).engines.get .a = some .cardResponse ∧
      ((atResponse r).chans.get .a).state = .engaged ∧ ((atResponse r).chans.get .a).lost = false ∧
      HoldsNothing (atResponse r) .a) ∧
    (codeOf 8 5 [2, 1] = codeOf 8 (some (5 : Key)).get! ([2] ++ [1]) ∧
      ([] : List Byte) ≠ codeOf 8 5 [2, 1]) ∧
    (∀ cmd, ((awaiting .reading cmd).chans.get .a).outstanding = some ⟨cmd, 1⟩ ∧
      ((awaiting .reading cmd).chans.get .a).answerTimer.isSome ∧
      ((awaiting .reading cmd).taps.get .a).state = .reading) ∧
    ((List.replicate 8 (1 : Byte)).length = 8 ∧ 3 < 4 ∧ (4 : Nat) ≤ 4) :=
  ⟨fun _ => ⟨rfl, rfl, rfl, rfl, rfl⟩, fun _ => ⟨rfl, rfl, rfl, rfl, ⟨rfl, rfl, rfl, rfl⟩⟩,
    ⟨by decide +kernel, by decide +kernel⟩, fun _ => ⟨rfl, rfl, rfl⟩, by decide⟩

/-- A transaction of a side at its last read-back, with its reservations and its INTENT. -/
def confirmingAt (sd : Side) (accept : AcceptKind) : State :=
  let x : Sighting :=
    { uid := cardUid, kind := .intent, base := 41, result := 42, source := ⟨3, sd⟩, side := sd
      time := 777600000 }
  let s := tapping sd .confirming (some ⟨.read 2, 1⟩) (fun r =>
    { r with
      target := some .a, journeyImage := some (List.replicate 32 9), confirmed := ⟨true, false⟩
      holdsGrant := true, holdsJournal := true, intent := some x
      decision := some ⟨accept, 0, 1500, noFareFlags, 41, 42⟩
      historyImage := if sd = .a then none else some (List.replicate 16 7) })
  { s with
    gate := { s.gate with reserved := 1 }
    journal := { s.journal with reserved := 1 }
    sightings := [⟨x, false, true, none⟩] }

/-- The same in a state of the gate, with its first and second block read, rewritten and confirmed as said. -/
def readingBack (sd : Side) (gate : Gate → Gate) (cmd : AirCommand) (rewritten confirmed : BlockSet) :
    State :=
  let s := confirmingAt sd (if sd = .a then .entry else .exit)
  modRecord sd (fun r => { r with rewritten := rewritten, confirmed := confirmed })
    { s with
      chans := inService.chans.set sd (engagedChannel (some ⟨cmd, 1⟩))
      gate := gate s.gate }

/-- What the transaction of a side has at every read-back. -/
theorem reading_back_ready (sd : Side) (gate : Gate → Gate) (cmd : AirCommand) (rew conf : BlockSet) :
    let s := readingBack sd gate cmd rew conf
    s.power = .running ∧ (s.chans.get sd).state = .engaged ∧ (s.chans.get sd).lost = false ∧
      (s.chans.get sd).answerTimer.isSome ∧ (s.chans.get sd).outstanding = some ⟨cmd, 1⟩ ∧
      (s.taps.get sd).state = .confirming ∧ (s.taps.get sd).ending = false ∧
      (s.taps.get sd).record.rewritten = rew ∧ (s.taps.get sd).record.confirmed = conf ∧
      firstBlock s sd = 1 ∧ secondBlock s sd = 2 ∧
      (s.taps.get sd).record.decision =
        some ⟨if sd = .a then .entry else .exit, 0, 1500, noFareFlags, 41, 42⟩ ∧
      (s.taps.get sd).record.cloneMark = none ∧ heldContext s sd = none ∧
      (s.taps.get sd).record.uid = some (tapUid s sd) := by
  cases sd <;> exact ⟨rfl, rfl, rfl, rfl, rfl, rfl, rfl, rfl, rfl, rfl, rfl, rfl, rfl, rfl, rfl⟩

/-- A transaction of side B with the WRITE of its first block outstanding, whose second block is unchanged. -/
def writingAt (st : TapState) : State :=
  tapping .b st (some ⟨.write 1 [], 1⟩) (fun r =>
    { r with target := some .a, journeyImage := some (List.replicate 32 9)
             blocks := [[], List.replicate 16 9] })

/-- R129: a commit into FREE is recorded, and its grant withdrawn unused with its record. -/
theorem test_commit_into_free :
    let t := run (.airAnswerArrival .a (.good (.data (List.replicate 16 9))))
      (readingBack .a (fun g => { g with freeFlag := true }) (.read 2) ⟨false, false⟩ ⟨true, false⟩)
    t.journal.records.map (fun r => (r.kind, r.flags.emergency)) =
        [(.entry, false), (.unused, true)] ∧
      t.gate.queue = [] ∧ t.gate.reserved = 0 := by decide +kernel

/-- R41: a second block that does not match is rewritten after a first one that did. -/
theorem test_mismatch_is_rewritten :
    let t := run (.airAnswerArrival .a (.good (.data (List.replicate 16 0))))
      (readingBack .a id (.read 2) ⟨false, false⟩ ⟨true, false⟩)
    t.taps.a.record.rewritten = ⟨false, true⟩ ∧
      t.chans.a.outstanding = some ⟨.write 2 (List.replicate 16 9), 1⟩ := by decide +kernel

/-- A tear context of a UID and a deadline. -/
def tornContextOf (u : Uid) (deadline : Nat) (holder : Option Side) (overdue : Bool) : Context :=
  { uid := u, side := .a, cls := 1, baseTc := 41, target := .a, journeyImage := List.replicate 32 9
    historyImage := none, confirmed := ⟨false, false⟩, fare := 0, balanceAfter := 1500
    flags := noFareFlags, created := 777599990, deadline := deadline, holder := holder
    overdue := overdue }

/-- The context of the card, held by side A. -/
def contextHeld : Context := tornContextOf cardUid 777600010 (some .a) false

/-- A recovery of class (b) at its last read-back, with its context held and a clone mark. -/
def recovering (mark : Option FindingReason) : State :=
  modRecord .a (fun r => { r with cloneMark := mark })
    { confirmingAt .a .recovered with contexts := [contextHeld] }

/-- R43, R80, R42: the recovery leaves the table, counts, and takes up its mark with a notice. -/
theorem test_recovery_commits :
    let t := run (.airAnswerArrival .a (.good (.data (List.replicate 16 9)))) (recovering (some .contest))
    t.contexts = [] ∧ t.journal.counters.recoveries = 1 ∧ t.hot.localList = [cardUid] ∧
      t.journal.records.map (fun r => (r.kind, r.fareVersion)) = [(.recovered, none)] ∧
      t.ring.insertion.length = 1 := by decide +kernel

/-- A state with a transaction of side B for the card in a state, at a card TC. -/
def beside (st : TapState) (tc : Nat) (s : State) : State :=
  { s with
    taps := s.taps.set .b
      { state := st, ending := false, hold := none
        record := { TapRecord.empty with uid := some cardUid, cardTc := some tc } } }

/-- R99, R100: the COMMIT of one channel refuses the claim of the other for its UID, and marks its write. -/
theorem test_commit_judges_the_other_channel :
    let t := fun st => run (.airAnswerArrival .a (.good (.data (List.replicate 16 9))))
      (beside st 41 (readingBack .a id (.read 2) ⟨false, false⟩ ⟨true, false⟩))
    (t .claiming).taps.b.record.refusal = some .cloneSuspect ∧
      (t .writing).taps.b.record.cloneMark = some .sameState ∧
      (t .writing).taps.b.record.refusal = none := by decide +kernel

/-- The entry and the exit, at the read-back that confirms both blocks, first or second, in each state of the
gate; blocks that match and that do not; a WRITE outstanding in every state that has one, with the second
block equal to the block as read and not, and an open record; and a recovery of class (b) with a clone
mark; and with the other channel in flight for the UID. -/
theorem test_witness_CommitConvertsTheReservations :
    (∀ sd, let s := readingBack sd id (.read 2) ⟨false, false⟩ ⟨true, false⟩
      Capacities s ∧ 1 ≤ s.journal.reserved ∧ 1 ≤ s.gate.reserved ∧ s.gate.queue = [] ∧
        (∃ e, entryOf s (tapUid s sd) = some e ∧ ownPinned s sd e = true) ∧
        inFlight s sd.other (tapUid s sd) = false ∧
        outlived s (makeSighting s sd (tapUid s sd) .commit 41 42) = false ∧
        composedBlock s sd 1 = List.replicate 16 9 ∧ composedBlock s sd 2 = List.replicate 16 9) ∧
    (List.replicate 16 (0 : Byte) ≠ List.replicate 16 9 ∧ (List.replicate 16 (0 : Byte)).length = 16) ∧
    (let at' := fun gate => gateState (readingBack .a gate (.read 1) ⟨true, false⟩ ⟨false, true⟩)
     at' id = .closed ∧ at' (fun g => { g with alarm := some .forced }) = .alarm .forced ∧
       at' (fun g => { g with freeFlag := true }) = .free ∧
       at' (fun g => { g with queue := [grantOf .b 89 false] }) = .opened .b) ∧
    gateState { inService with ring := { inService.ring with duplicate := true } } = .outOfService ∧
    (∀ st, let s := writingAt st
      s.power = .running ∧ (s.chans.get .b).state = .engaged ∧ (s.chans.get .b).lost = false ∧
        (s.chans.get .b).answerTimer.isSome ∧ (s.taps.get .b).state = st ∧
        (s.chans.get .b).outstanding = some ⟨.write 1 [], 1⟩ ∧ firstBlock s .b = 1 ∧
        (s.taps.get .b).record.refusal = none) ∧
    (composedBlock (writingAt .writing) .b 2 = blockAsRead (writingAt .writing) .b 2 ∧
      composedBlock (holdRunOut 9 0) .b 2 ≠ blockAsRead (holdRunOut 9 0) .b 2) ∧
    ({ commitRecord (confirmingAt .b .exit) .b ⟨.exit, 0, 1500, noFareFlags, 41, 42⟩ with
      sequence := 1 } : JournalRecord).isOpen = true ∧
    (∀ st ∈ [TapState.claiming, .writing],
      let s := beside st 41 (readingBack .a id (.read 2) ⟨false, false⟩ ⟨true, false⟩)
      inFlight s .b cardUid = true ∧
        findingAgainst s .b (makeSighting s .a cardUid .commit 41 42) none = some .sameState) ∧
    (∀ mark, Capacities (recovering mark) ∧ heldContext (recovering mark) .a = some contextHeld ∧
      ((recovering mark).taps.get .a).record.cloneMark = mark ∧
      ((recovering mark).taps.get .a).record.decision =
        some ⟨.recovered, 0, 1500, noFareFlags, 41, 42⟩) := by
  refine ⟨fun sd => ?_, by decide, by decide +kernel, by decide +kernel,
    fun _ => ⟨rfl, rfl, rfl, rfl, rfl, rfl, rfl, rfl⟩, by decide +kernel, rfl,
    fun st h => by rcases two_states h with rfl | rfl <;> exact ⟨rfl, by decide⟩,
    fun mark => ⟨?_, rfl, rfl, rfl⟩⟩
  rotate_left
  · have h : Capacities { confirmingAt .a .recovered with contexts := [contextHeld] } := by
      constructor <;> decide
    exact ⟨h.1, h.2, h.3, h.4, h.5, h.6, h.7, h.8, h.9, h.10, h.11, h.12, h.13⟩
  cases sd <;>
    exact ⟨by constructor <;> decide, by decide, by decide, rfl, ⟨_, rfl, by decide +kernel⟩, by decide +kernel, by decide +kernel,
      by decide +kernel, by decide +kernel⟩

/-- The entry of side A at its last read-back, at an attempt, with a Recovery Table. -/
def tearing (attempt : Nat) (contexts : List Context) : State :=
  { confirmingAt .a .entry with
    chans := inService.chans.set .a (engagedChannel (some ⟨.read 2, attempt⟩)), contexts := contexts }

/-- The same after one rewrite of the second block. -/
def rereading (contexts : List Context) : State :=
  modRecord .a (fun r => { r with rewritten := ⟨false, true⟩ }) (tearing 1 contexts)

/-- R46, R71: a tear makes a context with its TORN sighting. -/
theorem test_tear_makes_a_context :
    let t := run (.answerTimerExpiry .a) (tearing 2 [])
    t.contexts.map Context.baseTc = [41] ∧ t.contexts.map Context.deadline = [777600020] ∧
      t.sightings.map (fun e => e.sighting.kind) = [.torn] := by decide +kernel

/-- R75, R76: an unheld context expires at its deadline with a TORN record. -/
theorem test_deadline_expires :
    let t := run .lineTimeAdvance { inService with contexts := [tornContextOf 5 777600001 none false] }
    t.contexts = [] ∧ t.journal.records.map JournalRecord.kind = [.torn] := by decide +kernel

/-- R99, R100: so does its TORN, above the card TC of the other. -/
theorem test_torn_judges_the_other_channel :
    let t := fun st => run (.answerTimerExpiry .a) (beside st 40 (tearing 2 []))
    (t .claiming).taps.b.record.refusal = some .cloneSuspect ∧
      (t .writing).taps.b.record.cloneMark = some .stateBehind := by decide +kernel

/-- The two attempts before DECIDING; FINISHING of a BLOCK action and of an exit; a tear by a second
failure and by a second mismatch, with no context, one of the UID, a full table, and a held one; with a clone
mark and without; and with the other channel in flight for the UID, where the TORN finds and does not. -/
theorem test_witness_FailedWindowsOfAnEngagedChannel :
    (∀ n, let s := tapping .a .reading (some ⟨.read 2, n⟩) id
      s.power = .running ∧ (s.chans.get .a).state = .engaged ∧ (s.chans.get .a).answerTimer.isSome ∧
        AirCommand.read 2 ≠ .halt ∧ (s.chans.get .a).outstanding = some ⟨.read 2, n⟩ ∧
        (s.taps.get .a).state ∈ [TapState.selecting, .identifying, .authenticating, .reading] ∧
        HoldsNothing s .a) ∧
    (let s := tapping .b .finishing (some ⟨.write 6 [], 2⟩) id
     (s.taps.get .b).state = .finishing ∧ (s.chans.get .b).outstanding = some ⟨.write 6 [], 2⟩ ∧
       (s.taps.get .b).record.refusal = none) ∧
    ((tapping .b .finishing none (fun r => { r with refusal := some .hotlisted })).taps.get .b).record.refusal ≠
      none ∧
    (let r := { stampRecord inService .exit cardUid 1 .b with isOpen := true }
     r.isOpen = true ∧ r.side = .b) ∧
    (∀ cs, Tears .a (tearing 2 cs) (.answerTimerExpiry .a) true ∧
      Tears .a (rereading cs) (.airAnswerArrival .a (.good (.data (List.replicate 16 8)))) false ∧
      (tearing 2 cs).contexts = cs ∧
      ((tearing 2 cs).taps.get .a).record.decision = some ⟨.entry, 0, 1500, noFareFlags, 41, 42⟩ ∧
      ((tearing 2 cs).taps.get .a).record.target = some .a ∧
      ((tearing 2 cs).taps.get .a).record.journeyImage = some (List.replicate 32 9) ∧
      tapUid (tearing 2 cs) .a = cardUid) ∧
    (heldContext (tearing 2 []) .a = none ∧ contextOf (tearing 2 []) cardUid = none) ∧
    (let c := tornContextOf cardUid 777600010 none false
     heldContext (tearing 2 [c]) .a = none ∧ contextOf (tearing 2 [c]) cardUid = some c) ∧
    (let after := (List.range 31).map (fun n => tornContextOf (BitVec.ofNat 56 (n + 2)) 777600010 none false)
     let c := tornContextOf 1 777600010 none false
     (c :: after).length = 32 ∧ contextOf (tearing 2 (c :: after)) cardUid = none ∧ c.holder = none ∧
       (∀ x ∈ after, x.uid ≠ c.uid ∧ c.deadline ≤ x.deadline)) ∧
    (∀ overdue, let c := tornContextOf cardUid 777600010 (some .a) overdue
      heldContext (tearing 2 [c]) .a = some c ∧ c.uid = tapUid (tearing 2 [c]) .a ∧ c.side = .a ∧
        c.overdue = overdue) ∧
    (∀ mark st, let s := beside st 40 (modRecord .a (fun r => { r with cloneMark := mark }) (tearing 2 []))
      Tears .a s (.answerTimerExpiry .a) true ∧ (s.taps.get .a).record.holdsInsertion = false ∧
        TearContexts .a s ⟨.entry, 0, 1500, noFareFlags, 41, 42⟩ .a (List.replicate 32 9) 41
          ([] ++ [newContext s .a ⟨.entry, 0, 1500, noFareFlags, 41, 42⟩ .a (List.replicate 32 9)])
          s.journal) ∧
    (∀ tc, inFlight (beside .claiming tc (tearing 2 [])) .b cardUid = true ∧
      inFlight (beside .writing tc (tearing 2 [])) .b cardUid = true ∧
      inFlight (beside .idle tc (tearing 2 [])) .b cardUid = false) ∧
    (let finds := fun tc => findingAgainst (beside .writing tc (tearing 2 [])) .b
       (tornNow .a 41 (tearing 2 [])) none
     finds 40 = some .stateBehind ∧ finds 41 = none) :=
  ⟨fun _ => ⟨rfl, rfl, rfl, by decide, rfl, .tail _ (.tail _ (.tail _ (.head _))), holds_nothing _ _ _⟩,
    ⟨rfl, rfl, rfl⟩, by decide,
    ⟨rfl, rfl⟩,
    fun _ => ⟨.failed (.read 2) _ (.inr rfl) (by decide) rfl (.inl rfl),
      .mismatched 1 false _ rfl rfl rfl rfl
        (show List.replicate 16 (8 : Byte) ≠ List.replicate 16 9 by decide), rfl, rfl, rfl, rfl, rfl⟩,
    ⟨rfl, rfl⟩, by decide +kernel, by decide +kernel, fun _ => ⟨rfl, rfl, rfl, rfl⟩,
    fun _ _ => ⟨.failed (.read 2) _ (.inr rfl) (by decide) rfl (.inl rfl), rfl,
      .added rfl rfl (show (0 : Nat) < 32 by decide)⟩,
    fun _ => ⟨rfl, rfl, rfl⟩, by decide⟩

/-- A UID offered at a free port and while a grant is in use; a UID that waits at a free port, new, on the
list, and with a full list. -/
theorem test_witness_LocalAdditionIsJudged :
    let s := fun (l : List Uid) =>
      { inService with hot := { inService.hot with waiting := [cardUid], localList := l } }
    inService.power = .running ∧ inService.arb.inUse = none ∧ inService.hot.waiting = [] ∧
      (granted .merge inService).arb.inUse.isSome ∧
      (∀ l, (s l).arb.inUse = none ∧ (s l).hot.waiting = [cardUid] ∧ (s l).hot.localList = l ∧
        activeEntries (s l).hot = []) ∧
      cardUid ∈ [cardUid] ∧ cardUid ∉ ([] : List Uid) ∧
      (cardUid ∉ List.replicate 256 (0 : Uid) ∧ 256 ≤ (List.replicate 256 (0 : Uid)).length) :=
  ⟨rfl, rfl, rfl, rfl, fun _ => ⟨rfl, rfl, rfl, rfl⟩, by decide, by decide,
    by rw [List.mem_replicate]; decide, Nat.le_of_eq List.length_replicate.symm⟩

/-- A merge at the port with inputs left. -/
def mergingWith (es : List HotEntry) (os : List DeltaOp) : State :=
  granted .merge
    { inService with hot := { merging with mergeEntries := es, mergeOps := os } }

/-- Every shape of the inputs, and an entry before the operation, after it, and at one UID. -/
theorem test_witness_MergeStepTakesTheSmallestUid :
    (∀ es os, (mergingWith es os).power = .running ∧ (mergingWith es os).arb.inUse = some .merge ∧
      (mergingWith es os).hot.mergeEntries = es ∧ (mergingWith es os).hot.mergeOps = os) ∧
    (⟨1, .refuse⟩ : HotEntry).uid < (DeltaOp.remove 2).uid ∧
    (DeltaOp.add 2 .block).uid < (⟨3, .refuse⟩ : HotEntry).uid ∧
    (DeltaOp.remove 2).uid = (⟨2, .refuse⟩ : HotEntry).uid :=
  ⟨fun _ _ => ⟨rfl, rfl, rfl, rfl⟩, by decide, by decide, by decide⟩

/-- A load at a phase, with a grant of the port. -/
def loadingAt (ask : LoaderAsk) (phase : LoadPhase) (image : List Byte) (length : Nat) : State :=
  granted (.loader ask)
    { inService with
      clock := State.reset.clock
      loader := some ⟨.fare, .y, length, length, phase⟩
      store := { inService.store with bankY := { Bank.cold with image := image } } }

theorem test_witness_LoaderWriteAppendsTheData :
    let s := loadingAt (.write [1, 2]) .data [] 190
    s.power = .running ∧ s.arb.inUse = some (.loader (.write [1, 2])) ∧
      s.loader = some ⟨.fare, .y, 190, 190, .data⟩ := by decide

/-- A hotlist load at a phase, with a grant of the port and an image. -/
def hotLoadingAt (kind : LoadKind) (phase : LoadPhase) (image : List Byte) : State :=
  granted (.loader .read)
    { inService with
      loader := some ⟨kind, .x, image.length, image.length, phase⟩
      hot := { State.reset.hot with image := image, version := 14 } }

/-- R185: the ring engine takes the pieces of the image as the reads arrive. -/
theorem test_table_code_reads :
    let s := { loadingAt .read (.code 0) (List.replicate 65 3) 65 with
      ringEngine := some (.tableCode 1 []) }
    let t := run .loaderRead s
    t.ringEngine = some (.tableCode 1 (List.replicate 64 3)) ∧
      t.loader.map Loading.phase = some (.code 64) := by decide +kernel

/-- A read before the end and the last one, for code and contents; FARE images good and bad, due and not
due; FULL and DELTA images that pass and fail; a base version that differs; operations and none. -/
theorem test_witness_LoaderReadGoesThroughTheImage :
    (∀ phase image length,
      (loadingAt .read phase image length).power = .running ∧
      (loadingAt .read phase image length).arb.inUse = some (.loader .read) ∧
      (loadingAt .read phase image length).loader = some ⟨.fare, .y, length, length, phase⟩ ∧
      (bankOf (loadingAt .read phase image length).store (otherBank .y)).state ≠ .pending) ∧
    (∀ kind phase image, (hotLoadingAt kind phase image).power = .running ∧
      (hotLoadingAt kind phase image).arb.inUse = some (.loader .read) ∧
      (hotLoadingAt kind phase image).loader = some ⟨kind, .x, image.length, image.length, phase⟩) ∧
    (∀ n image, ({ loadingAt .read (.code n) image 65 with
      ringEngine := some (.tableCode 1 []) } : State).ringEngine = some (.tableCode 1 [])) ∧
    (0 + 64 < 65 ∧ ¬ 0 + 64 < 64 ∧ (64 : Nat) ≤ 0 + 64) ∧
    (fareImageGood tableImage = true ∧ fareImageGood [1] = false ∧
      (bankOf (loadingAt .read (.contents 128) tableImage 190).store .y).image = tableImage ∧
      dueNow (parseFareTable tableImage).activation inService.clock ∧
      ¬ dueNow (parseFareTable tableImage).activation State.reset.clock) ∧
    (parseFull [1] = none ∧
      parseFull (toBE 2 15 ++ toBE 2 1 ++ toBE 7 5 ++ [1]) = some [⟨5, .refuse⟩]) ∧
    (parseDelta [1] = none ∧ parseDelta (toBE 2 14 ++ toBE 2 15 ++ toBE 2 0) = some [] ∧
      parseDelta (toBE 2 14 ++ toBE 2 15 ++ toBE 2 1 ++ [1] ++ toBE 7 5 ++ [1]) =
        some [.add 5 .refuse] ∧
      imageHalf (toBE 2 14 ++ toBE 2 15 ++ toBE 2 0) 0 = 14 ∧
      imageHalf (toBE 2 13 ++ toBE 2 15 ++ toBE 2 0) 0 ≠ 14 ∧
      countAfter (activeEntries State.reset.hot) [.add 5 .refuse] ≤ 16384) :=
  ⟨fun _ _ _ => ⟨rfl, rfl, rfl, show BankState.active ≠ .pending by decide⟩,
    fun _ _ _ => ⟨rfl, rfl, rfl⟩, fun _ _ => rfl, by decide,
    ⟨by decide +kernel, by decide +kernel, rfl, by unfold dueNow; decide +kernel,
      by unfold dueNow; decide +kernel⟩, by decide +kernel, by decide +kernel⟩

/-- Each place that a lookup can find its UID, and none. -/
theorem test_witness_LookupReadsTheView :
    (mergeLists.deltaCond = .present ∧
      mergeLists.deltaOps.find? (fun o => o.uid = 0x0C) = some (.add 0x0C .block)) ∧
    mergeLists.deltaOps.find? (fun o => o.uid = 0x0D) = some (.remove 0x0D) ∧
    ((∀ o ∈ ({ mergeLists with deltaOps := [] } : Hotlist).deltaOps, o.uid ≠ 0x0D) ∧
      (activeEntries mergeLists).find? (fun e => e.uid = 0x0D) = some ⟨0x0D, .block⟩) ∧
    ((∀ o ∈ mergeLists.deltaOps, o.uid ≠ 0x0E) ∧ ∀ e ∈ activeEntries mergeLists, e.uid ≠ 0x0E) ∧
    (let s := atIdentity (codedBlock 1 7)
     s.power = .running ∧ s.engines.get .a = some .identity ∧ (s.chans.get .a).state = .engaged ∧
       blockCode (tapBlock0 s .a) = identityCode (tapCodeKey s .a) (tapUid s .a) (tapBlock0 s .a) ∧
       blockStatus (tapBlock0 s .a) = 1 ∧ blockClass (tapBlock0 s .a) ≤ 7) ∧
    (let s := lookingUp [⟨cardUid, .block⟩]
     s.power = .running ∧ s.arb.inUse = some (.tap .b .lookup) ∧ s.arb.tap.get .b = none ∧
       (s.chans.get .b).state = .engaged ∧ s.hot.waiting = []) := by
  decide +kernel

/-- A good foreign sighting frame at a gate that listens. -/
theorem sighting_arrives (x : Sighting) (h : frameGood (sightingFrame x) = true)
    (hs : strips inService (sightingFrame x) = false)
    (ht : takesSighting inService (sightingFrame x) = true) :
    receives inService (sightingFrame x) = true ∧ strips inService (sightingFrame x) = false ∧
      takesSighting inService (sightingFrame x) = true := by
  refine ⟨?_, hs, ht⟩
  simp only [receives, h, Bool.and_true]; rfl

/-- A consistent sighting, an inconsistent one and one past its period, of a UID without an entry; an entry
of each kind, of the sighting's source and of another; and a full table. -/
theorem test_witness_SightingOfANewUid :
    let x := seen .commit 70 71
    let y := seen .commit 70 75
    let z := { seen .commit 70 71 with time := 777598800 }
    let i := seen .intent 70 71
    (inService.power = .running ∧ receives inService (sightingFrame x) = true ∧
      strips inService (sightingFrame x) = false ∧ takesSighting inService (sightingFrame x) = true ∧
      parseSighting (sightingFrame x) = some x ∧ inService.sightings = [] ∧
      inFlight inService .a x.uid = false ∧ inFlight inService .b x.uid = false ∧
      consistent x = true ∧ outlived inService x = false) ∧
    (parseSighting (sightingFrame y) = some y ∧ consistent y = false) ∧
    (parseSighting (sightingFrame z) = some z ∧ outlived inService z = true) ∧
    (parseSighting (sightingFrame i) = some i ∧ consistent i = true ∧ outlived inService i = false ∧
      takesSighting inService (sightingFrame i) = true) ∧
    (∀ k ∈ [SightKind.intent, .commit, .torn, .unused],
      outlived inService { seen k 68 69 with source := ⟨8, .a⟩ } = false ∧
        (seen k 68 69).source = x.source ∧ (⟨8, .a⟩ : Source) ≠ x.source) ∧
    (let e : SightEntry := ⟨{ seen .commit 1 2 with uid := 5 }, false, false, none⟩
     outlived inService e.sighting = false ∧ e.pin = false ∧ e.sighting.uid ≠ x.uid) := by decide +kernel

theorem test_full_sighting_table (e : SightEntry) :
    List.replicate 2048 e = [] ++ e :: List.replicate 2047 e ∧ (List.replicate 2048 e).length = 2048 ∧
      ∀ y ∈ List.replicate 2047 e, y.pin = false → e.sighting.time ≤ y.sighting.time :=
  ⟨rfl, List.length_replicate, fun _ h _ => (List.eq_of_mem_replicate h) ▸ Nat.le_refl _⟩

/-- A transaction in CLAIMING at a card TC. -/
def claimingAt (tc : Nat) : State :=
  modTap .a (fun t => { t with hold := some 12 })
    (tapping .a .claiming none (fun r => { r with cardTc := some tc }))

/-- A transaction of side A at a card TC, with its INTENT pinned, and a clone mark. -/
def flying (st : TapState) (tc : Nat) (mark : Option FindingReason) : State :=
  { tapping .a st none (fun r => { r with cardTc := some tc, cloneMark := mark }) with
    sightings := [⟨ownIntent .a tc (claimingAt tc), false, true, none⟩] }

/-- The same with a head grant of side B for the same UID and its pass timer. -/
def flyingBeside (st : TapState) (tc : Nat) : State :=
  { flying st tc none with gate := (withGrants [grantOf .b 89 false] 0 (.running 500)).gate }

/-- R39: a foreign COMMIT above the card TC refuses, and its sighting takes the entry. -/
theorem test_finding_refuses :
    let t := run (.sightingArrival (sightingFrame (seen .commit 70 71))) (flying .claiming 70 none)
    t.taps.a.record.refusal = some .cloneSuspect ∧ t.hot.localList = [cardUid] ∧
      t.sightings = [⟨seen .commit 70 71, false, false, none⟩] := by decide +kernel

/-- A transaction in each state with and without a mark; an arrival of each kind on its entry, with a
finding and with none; an own UNUSED of the other channel with both; and a full insertion queue. -/
theorem test_witness_ForeignCommitRefusesTheClaim :
    (∀ st mark, let s := flying st 70 mark
      s.power = .running ∧ (s.taps.get .a).state = st ∧ (s.taps.get .a).record.cloneMark = mark) ∧
    (∀ st ∈ [TapState.claiming, .writing, .confirming], inFlight (flying st 70 none) .a cardUid = true ∧
      inFlight (flying st 70 none) .b cardUid = false) ∧
    (∀ x ∈ [seen .commit 70 71, seen .commit 68 69, seen .intent 71 72, seen .intent 70 71,
        seen .torn 71 72, seen .unused 71 71],
      let s := flying .claiming 70 none
      receives s (sightingFrame x) = true ∧ strips s (sightingFrame x) = false ∧
        takesSighting s (sightingFrame x) = true ∧ parseSighting (sightingFrame x) = some x ∧
        consistent x = true ∧ outlived s x = false ∧ x.uid = cardUid) ∧
    (let e : SightEntry := ⟨ownIntent .a 70 (claimingAt 70), false, true, none⟩
     (∀ x, x.uid = cardUid → ∀ e' reason, Meets x e e' reason →
        ∃ table, TableTakes (Meets x) x (liveEntries (flying .claiming 70 none) [e]) table reason) ∧
       Meets (seen .commit 70 71) e ⟨seen .commit 70 71, false, false, none⟩ none ∧
       Meets (seen .commit 68 69) e e none ∧
       Meets (seen .intent 71 72) e ⟨seen .intent 71 72, true, false, none⟩ (some .contest) ∧
       Meets (seen .intent 70 71) e { e with contested := true } (some .contest) ∧
       Meets (seen .torn 71 72) e ⟨seen .torn 71 72, false, false, none⟩ none ∧
       Meets (seen .unused 71 71) e ⟨seen .unused 71 71, false, false, none⟩ none) ∧
    (findingAgainst (flying .claiming 70 none) .a (seen .commit 68 69) none = none ∧
      findingAgainst (flying .claiming 70 none) .a (seen .commit 70 71) none = some .sameState) ∧
    (let x := makeSighting (flyingBeside .claiming 70) .b cardUid .unused 89 89
     let e : SightEntry := ⟨ownIntent .a 70 (claimingAt 70), false, true, none⟩
     MeetsOwn x e ⟨x, false, false, none⟩ none ∧
       findingAgainst (flyingBeside .claiming 70) .a x none = some .stateBehind ∧
       findingAgainst (flyingBeside .claiming 89) .a x none = none) ∧
    (∀ st ∈ [TapState.claiming, .confirming], let s := flyingBeside st 70
      s.power = .running ∧ s.gate.passTimer = .running 500 ∧ gateState s = .opened .b ∧
        s.gate.queue = [grantOf .b 89 false] ∧ (grantOf .b 89 false).side = Side.a.other ∧
        inFlight s .a (grantOf .b 89 false).uid = true ∧
        Joins (.sighting (seen .commit 1 2)) s.ring [.sighting (seen .commit 1 2)]) :=
  ⟨fun _ _ => ⟨rfl, rfl, rfl⟩, by decide, by decide +kernel,
    ⟨fun x h e' reason m => ⟨_, .standing _ e' reason
        (show List.find? _ [_] = some _ by simp [h, ownIntent, claimingAt]; rfl) m⟩,
      .stateAhead (by decide) (by decide) (by decide) (by decide),
      .stateBehind (by decide) (by decide) (by decide),
      .contestWon (by decide) rfl rfl (by decide), .contestKept (by decide) rfl rfl (by decide),
      .stateAhead (by decide) (by decide) (by decide) (by decide),
      .stateAhead (by decide) (by decide) (by decide) (by decide)⟩,
    by decide, ⟨.other _ _ (by decide) (.stateAhead (by decide) (by decide) (by decide) (by decide)),
      by decide, by decide⟩,
    fun st h => by rcases two_states h with rfl | rfl <;> exact ⟨rfl, by decide +kernel, by decide +kernel, by decide +kernel, rfl,
      by decide, .free (by decide)⟩⟩

theorem test_witness_CloneNoticeContestsTheEntry :
    inService.power = .running ∧ receives inService noticeFrame = true ∧
      strips inService noticeFrame = false ∧ takesNotice inService noticeFrame = true ∧
      parseNotice noticeFrame = some cardUid ∧ inService.arb.inUse = none ∧
      inService.hot.waiting = [] := by decide +kernel

/-- A beacon below, at and above line time, and one at an unset clock; a PENDING table that is due at a
beacon and not, and a context whose deadline it reaches. -/
theorem test_witness_BeaconSetsOrHoldsTheClock :
    (∀ t ∈ [777599999, 777600000, 777600001],
      receives inService (beaconFrame t) = true ∧ takesBeacon (beaconFrame t) = true ∧
      strips inService (beaconFrame t) = false ∧ parseBeacon (beaconFrame t) = some t) ∧
    inService.power = .running ∧ inService.clock.isSet = true ∧
    777599999 < inService.clock.lineTime ∧ inService.clock.lineTime ≤ 777600000 ∧
    State.reset.clock.isSet = false ∧
    (let s : Nat → State := fun a =>
      { inService with
        contexts := [tornContextOf 5 777600001 none false]
        store :=
          { inService.store with
            bankY :=
              { state := .pending, image := tableImage, version := 42, activation := a, refs := 0 } } }
     let t := fun a => run (.beacon (beaconFrame 777600060)) (s a)
     bankIn (s 12960001).store .pending = some .y ∧
       (bankOf (s 12960001).store .y).activation ≤ (t 12960001).clock.lineTime / 60 ∧
       (t 12960002).clock.lineTime / 60 < (bankOf (s 12960002).store .y).activation ∧
       (t 12960001).store.bankY.state = .active ∧ (t 12960001).store.bankX = Bank.cold ∧
       (t 12960001).contexts = [] ∧
       (t 12960001).journal.records.map JournalRecord.kind = [.torn]) := by decide +kernel

/-- A PENDING table in bank Y that the next second, or a later one, makes due; a clock that holds; and
contexts whose deadline is reached. -/
theorem test_witness_LineTimeAdvanceActivatesATable :
    let s := fun (a refs : Nat) =>
      { inService with
        clock := { inService.clock with lineTime := 777600059 }
        store :=
          { inService.store with
            bankX := { inService.store.bankX with refs := refs }
            bankY :=
              { state := .pending, image := tableImage, version := 42, activation := a, refs := 0 } } }
    ((s 12960001 0).power = .running ∧ (s 12960001 0).clock.isSet = true ∧
      (s 12960001 0).clock.hold = false ∧ bankIn (s 12960001 0).store .pending = some .y ∧
      (bankOf (s 12960001 1).store .y).activation ≤ (777600059 + 1) / 60 ∧
      (777600059 + 1) / 60 < (bankOf (s 12960002 0).store .y).activation) ∧
    bankIn inService.store .pending = none ∧ (clockAt true).clock.hold = true ∧
    (let due := tornContextOf 1 777600001 none false
     let later := tornContextOf 2 777600001 none false
     let held := tornContextOf 3 777600001 (some .b) false
     ([due, later, held].map Context.uid).Nodup ∧
       [due, held].filter (fun c => decide (c.deadline ≤ 777600001) && c.holder.isNone) = [due] ∧
       [due, later].filter (fun c => decide (c.deadline ≤ 777600001) && c.holder.isNone) =
         [due, later]) := by decide +kernel

theorem test_witness_PlainTimersExpire :
    inService.power = .running ∧ inService.ring.watch.isSome ∧
      ({ inService with ring := { inService.ring with sent := [ownEntry] } } : State).ring.sent =
        ownEntry :: [] ∧
      exec (.stopTimerExpiry .a) inService = .next (run (.stopTimerExpiry .a) inService) ∧
      gateState (run (.stopTimerExpiry .a) inService) ≠ .free ∧
      gateState (run (.stopTimerExpiry .a) inService) ≠ .outOfService :=
  ⟨rfl, rfl, rfl, rfl, by decide +kernel, by decide +kernel⟩

/-- R126: an own frame without an entry takes a gate with two grants OUT_OF_SERVICE; their UNUSED records are
without EMERGENCY, the head's first, and their sightings join. -/
theorem test_out_of_service_empties_the_lane :
    let t := run (.frameStripped ownFrame)
      (withGrants [grantOf .b 89 false, grantOf .a 13 false] 0 (.running 500))
    gateState t = .outOfService ∧ t.gate.queue = [] ∧ t.gate.passTimer = .stopped ∧
      t.gate.leaf = .close ∧
      t.journal.records.map (fun r => (r.kind, r.tcAfter, r.flags.emergency)) =
        [(.unused, some 89, false), (.unused, some 13, false)] ∧
      t.sightings.map (fun e => e.sighting.result) = [89] := by decide +kernel

/-- A match behind an entry that does not match; no match, at an empty gate and at one with two grants, in
service and in FREE. -/
theorem test_witness_OwnFrameIsStripped :
    let other : SentEntry := ⟨2, 19, 0, 4800⟩
    let s := { inService with ring := { inService.ring with sent := [other] ++ ownEntry :: [] } }
    s.power = .running ∧ receives s ownFrame = true ∧ strips s ownFrame = true ∧
      (ownEntry.kind = ownFrame.kind ∧ ownEntry.length = ownFrame.payload.length ∧
        ownEntry.crc = ownFrame.crc) ∧
      (∀ x ∈ [other], ¬ (x.kind = ownFrame.kind ∧ x.length = ownFrame.payload.length ∧
        x.crc = ownFrame.crc)) ∧
      (∀ x ∈ inService.ring.sent, ¬ (x.kind = ownFrame.kind ∧ x.length = ownFrame.payload.length ∧
        x.crc = ownFrame.crc)) ∧ gateState s ≠ .free ∧ s.gate.queue = [] ∧
      (let w := withGrants [grantOf .b 89 false, grantOf .a 13 false] 0 (.running 500)
       w.power = .running ∧ receives w ownFrame = true ∧ strips w ownFrame = true ∧
         w.ring.sent = [] ∧ gateState w ≠ .free ∧
         (∀ g ∈ w.gate.queue, anyInFlight w g.uid = false) ∧
         gateState { w with emerg := true } = .free) := by decide +kernel

/-- A frame that passes, and a request at a full answer queue. -/
theorem test_witness_FramesPassOrAreDropped :
    let f := buildFrame kindAnswer 9 .a 0 [2, 0]
    let s := { inService with ring := { inService.ring with held := 1, filled := [f, f, f] } }
    inService.power = .running ∧ receives inService f = true ∧ strips inService f = false ∧
      takenByNone inService f = true ∧ receives s (requestFrameOf 2 0 []) = true ∧
      strips s (requestFrameOf 2 0 []) = false ∧ takesRequest s (requestFrameOf 2 0 []) = true ∧
      4 ≤ answerUsed s.ring := by decide +kernel

theorem test_witness_RingOutFrameEndFreesTheLine :
    let s := { inService with ring := { inService.ring with sending := some ⟨ownFrame, .answer⟩ } }
    s.power = .running ∧ s.ring.sending = some ⟨ownFrame, .answer⟩ ∧ s.ring.sent.length < 16 ∧
      sendsRestart s = false := by decide +kernel

/-- Each source in turn, and the full sent list. -/
theorem test_witness_RingOutTakesTheFirstSource :
    let r := inService.ring
    r.sending = none ∧ r.repeater = false ∧ r.forward = [] ∧ r.sent.length < 16 ∧
      ({ r with forward := [ownFrame] } : Ring).forward = ownFrame :: [] ∧
      16 ≤ ({ r with sent := List.replicate 16 ownEntry } : Ring).sent.length ∧
      ({ r with insertion := [.sighting (seen .commit 1 2)] } : Ring).insertion =
        LineMsg.sighting (seen .commit 1 2) :: [] ∧
      r.insertion = [] ∧ r.filled = [] ∧ ({ r with filled := [ownFrame] } : Ring).filled = ownFrame :: [] ∧
      r.joined = true ∧ (stampRecord inService .entry cardUid 1 .a).isOpen = false ∧
      inService.journal.records = [] := by decide +kernel

/-- The gate states of the rows, with the occupancy at its ends. -/
theorem test_witness_EnterByTheGateState :
    gateState State.reset = .outOfService ∧ gateState inService = .closed ∧
      inService.gate.occupancy < 2 ∧
      2 ≤ ({ inService with gate := { inService.gate with occupancy := 2 } } : State).gate.occupancy ∧
      gateState { inService with gate := { inService.gate with alarm := some .forced } } =
        .alarm .forced ∧
      gateState (withGrants [grantOf .a 1 false] 1 (.running 5)) = .opened .a ∧
      gateState (withGrants [grantOf .b 1 true] 1 .stopped) = .passing (Side.other .a) ∧
      gateState (withGrants [grantOf .a 1 true, grantOf .a 2 false] 1 .stopped) = .passing .a ∧
      gateState (withGrants [grantOf .a 1 true] 1 .stopped) = .passing .a := by decide +kernel

theorem test_witness_PassedConsumesOrBacksOut :
    inService.power = .running ∧ gateState inService ≠ .passing .a ∧
      gateState inService ≠ .passing .b ∧
      gateState (withGrants [grantOf .b 1 true, grantOf .a 2 false] 1 .stopped) =
        .passing (Side.other .a) ∧
      (withGrants [grantOf .a 1 true, grantOf .a 2 true] 2 .stopped).gate.queue =
        grantOf .a 1 true :: grantOf .a 2 true :: [] ∧
      gateState (withGrants [grantOf .a 1 true, grantOf .a 2 true] 2 .stopped) = .passing .a ∧
      (withGrants [grantOf .a 1 true] 1 .stopped).gate.queue = [grantOf .a 1 true] := by decide +kernel

/-- PASSING, an alarm with a paused and with a running pass timer, and the other states. -/
theorem test_witness_ClearEmptiesTheLane :
    let s := fun (k : AlarmKind) (t : PassTimer) =>
      { inService with gate := { inService.gate with alarm := some k, passTimer := t } }
    gateState (withGrants [grantOf .a 1 true] 1 .stopped) = .passing .a ∧
      gateState (s .tailgate (.paused 7)) = .alarm .tailgate ∧ AlarmKind.tailgate ≠ .forced ∧
      (s .tailgate (.paused 7)).gate.passTimer = .paused 7 ∧
      (∀ left, (s .tailgate (.running 7)).gate.passTimer ≠ .paused left) ∧
      gateState (s .forced .stopped) = .alarm .forced ∧
      gateState inService ∈ [GateState.outOfService, .closed, .free] :=
  ⟨by decide +kernel, by decide +kernel, by decide, rfl, not_paused rfl, by decide +kernel,
    by decide +kernel⟩

theorem test_witness_ForcedAndOccupiedLongRaiseAlarms :
    inService.power = .running ∧ gateState inService = .closed ∧
      gateState State.reset ∈ [GateState.outOfService, .free] := by decide +kernel

/-- A second grant behind the head; a full Journal Queue; no entry, an own one, and foreign ones below and
above the grant. -/
theorem test_witness_PassTimerExpiryWithdrawsTheHead :
    let s := withGrants [grantOf .b 89 false, grantOf .a 13 false] 0 (.running 1)
    s.power = .running ∧ s.gate.passTimer = .running 1 ∧ gateState s = .opened .b ∧
      s.gate.queue = grantOf .b 89 false :: [grantOf .a 13 false] ∧
      (∀ h ∈ [grantOf .a 13 false], h.entered = false) ∧ inFlight s .a cardUid = false ∧
      inFlight s .b cardUid = false ∧ s.sightings = [] ∧ 1 ≤ journalAvailable s.journal ∧
      journalAvailable { s.journal with reserved := 1024 } = 0 ∧
      (∀ n ∈ [88, 89, 90], outlived s (seen .commit n n) = false) ∧
      outlived s { seen .commit 88 89 with source := ⟨3, .b⟩ } = false := by decide +kernel

/-- R135, R139: the grants withdrawn by an emergency leave their records, the head first, with EMERGENCY. -/
theorem test_emergency_records :
    (run .emergAsserted (withGrants [grantOf .b 89 false, grantOf .a 13 false] 0
      (.running 1))).journal.records.map (fun r => (r.kind, r.tcAfter, r.flags.emergency)) =
        [(.unused, some 89, true), (.unused, some 13, true)] := by decide +kernel

/-- An occupied and an empty gate; a release into service and one into OUT_OF_SERVICE. -/
theorem test_witness_EmergencyFreesTheGate :
    (withGrants [grantOf .b 89 false] 0 (.running 1)).gate.queue ≠ [] ∧ inService.gate.queue = [] ∧
      (∀ g ∈ [grantOf .b 89 false],
        anyInFlight (withGrants [grantOf .b 89 false] 0 (.running 1)) g.uid = false) ∧
      inService.power = .running ∧
      (inService.chans.get .a).state ∈ [ChanState.polling, .awaitRemoval] ∧
      ((tapping .a .reading none id).chans.get .a).state = .engaged ∧
      gateState { inService with emerg := false } ≠ .free ∧
      gateState { inService with emerg := false } ≠ .outOfService ∧
      (State.reset.gate.queue = [] ∧ State.reset.gate.passTimer = .stopped ∧
        State.reset.gate.alarm = none) := by decide +kernel

/-- The conditions of a judged request, from its parts. -/
theorem judged_in_service (r : Request) (f : RingFrame) (ha : requestArrives inService r f = true)
    (hl : requestLengthGood r f.payload = true) : Judged r f inService :=
  ⟨rfl, ha, by decide, rfl, hl⟩

/-- The conditions of a request accepted uncoded at the gate in service, which has no line key. -/
theorem uncoded_in_service (r : Request) (f : RingFrame) (ha : requestArrives inService r f = true)
    (hl : requestLengthGood r f.payload = true) : Uncoded r f inService :=
  ⟨judged_in_service r f ha hl, by decide +kernel⟩

theorem test_witness_OpenRequestsAreAnswered :
    Judged .describe (requestFrameOf 1 0 []) inService ∧
      Judged .status (requestFrameOf 2 0 []) inService ∧
      Judged .counters (requestFrameOf 3 0 []) inService :=
  ⟨judged_in_service _ _ (by decide +kernel) (by decide +kernel),
    judged_in_service _ _ (by decide +kernel) (by decide +kernel),
    judged_in_service _ _ (by decide +kernel) (by decide +kernel)⟩

theorem test_witness_CountersClearAndRestart :
    Uncoded .countersClear (requestFrameOf 4 0 []) inService ∧
      Uncoded .restart (requestFrameOf 7 0 []) inService :=
  ⟨uncoded_in_service _ _ (by decide +kernel) (by decide +kernel),
    uncoded_in_service _ _ (by decide +kernel) (by decide +kernel)⟩

/-- A gate in service with two grants. -/
def occupied : State :=
  { inService with
    gate := { inService.gate with
      queue := [grantOf .b 89 false, grantOf .a 13 false], passTimer := .running 500 } }

/-- What is accepted uncoded at the gate in service is so with grants in its queue. -/
theorem uncoded_occupied {r : Request} {f : RingFrame} (h : Uncoded r f inService) : Uncoded r f occupied :=
  ⟨⟨h.running, h.arrives, h.place, h.idle, h.length⟩, h.noKey⟩

/-- R126, R169: a SETUP to OUT_OF_SERVICE withdraws both grants. -/
theorem test_setup_empties_the_lane :
    let t := run (.setup (requestFrameOf 5 0 [0, 7, 1, 3, 2]) true) occupied
    gateState t = .outOfService ∧ t.gate.queue = [] ∧ t.gate.passTimer = .stopped ∧
      t.journal.records.map (fun r => (r.tcAfter, r.flags.emergency)) =
        [(some 89, false), (some 13, false)] := by decide +kernel

/-- The ends of the ranges, and a field out of its range; grants in the queue, with a record that keeps the
gate in service and one that does not. -/
theorem test_witness_SetupIsWrittenWhole :
    (Uncoded .setup (requestFrameOf 5 0 [0xFF, 0xFE, 15, 3, 2]) inService ∧
      numOf [0xFF, 0xFE, 15, 3, 2] 1 2 = 65534 ∧ numOf [0xFF, 0xFE, 15, 3, 2] 3 3 = 15 ∧
      gateModeOf 3 = some .both ∧ serviceOf 2 = some .outService) ∧
    (Uncoded .setup (requestFrameOf 5 0 [0, 0, 15, 3, 2]) inService ∧
      numOf [0, 0, 15, 3, 2] 1 2 < 1) ∧
    (Uncoded .setup (requestFrameOf 5 0 [0xFF, 0xFE, 15, 3, 2]) occupied ∧ occupied.gate.queue ≠ [] ∧
      (let written := fun v =>
         { occupied with store := { occupied.store with setup := some ⟨65534, 15, .both, v⟩ } }
       laneShut (written .outService) ∧ ¬ laneShut (written .inService))) :=
  have h := uncoded_in_service .setup (requestFrameOf 5 0 [0xFF, 0xFE, 15, 3, 2]) (by decide +kernel)
    (by decide +kernel)
  ⟨⟨h, by decide +kernel, by decide +kernel, rfl, rfl⟩,
    ⟨uncoded_in_service _ _ (by decide +kernel) (by decide +kernel), by decide +kernel⟩,
    ⟨uncoded_occupied h, by decide, by unfold laneShut; decide +kernel⟩⟩

/-- Each action, and the values beside them, at an empty gate and at one with grants. -/
theorem test_witness_GateActionsAreTaken :
    ∀ a ∈ [(0 : Byte), 1, 2, 3, 4],
      Uncoded .gate (requestFrameOf 6 0 [a]) inService ∧
        Uncoded .gate (requestFrameOf 6 0 [a]) occupied ∧
        numOf (requestParams (requestFrameOf 6 0 [a]).payload) 1 1 = a.toNat := by
  intro a h
  simp only [List.mem_cons, List.not_mem_nil, or_false] at h
  rcases h with rfl | rfl | rfl | rfl | rfl <;>
    exact
      have h := uncoded_in_service _ _ (by decide +kernel) (by decide +kernel)
      ⟨h, uncoded_occupied h, by decide +kernel⟩

/-- R170: a LOAD_BEGIN in RECEIVING breaks off the load, even when it is refused itself. -/
theorem test_load_begin_breaks_off :
    let s := { inService with
      loader := some ⟨.delta, .x, 190, 3, .data⟩
      hot := { inService.hot with deltaCond := .receiving, image := [1, 2, 3] } }
    let t := run (.loadBegin (requestFrameOf 8 0 ([4] ++ word 1)) true) s
    t.loader = none ∧ t.hot.deltaCond = .absent ∧ t.hot.image = [] := by decide +kernel

/-- Each kind at its largest length, one byte more, and the kinds beside them; IDLE and RECEIVING. -/
theorem test_witness_LoadBeginOpensADestination :
    inService.loader = none ∧
    (∀ r f k n, Uncoded r f inService →
      Uncoded r f { inService with loader := some ⟨k, .y, 190, n, .data⟩ }) ∧
    ∀ p ∈ [((0 : Byte), 1), (1, 512), (1, 513), (2, 131076), (2, 131077), (3, 4614), (3, 4615), (4, 1)],
      Uncoded .loadBegin (requestFrameOf 8 0 ([p.1] ++ word p.2)) inService ∧
        numOf (requestParams (requestFrameOf 8 0 ([p.1] ++ word p.2)).payload) 1 1 = p.1.toNat ∧
        numOf (requestParams (requestFrameOf 8 0 ([p.1] ++ word p.2)).payload) 2 5 = p.2 := by
  refine ⟨rfl, fun _ _ _ _ h => ⟨⟨h.running, h.arrives, h.place, h.idle, h.length⟩, h.noKey⟩, ?_⟩
  intro p h
  simp only [List.mem_cons, List.not_mem_nil, or_false] at h
  rcases h with rfl | rfl | rfl | rfl | rfl | rfl | rfl | rfl <;>
    exact ⟨uncoded_in_service _ _ (by decide +kernel) (by decide +kernel), by decide +kernel,
      by decide +kernel⟩

/-- A LOAD_DATA of two bytes at an offset, at a gate with a FARE load of 190 bytes of which some came. -/
def dataFrame (offset : Nat) : RingFrame := requestFrameOf 9 0 (word offset ++ [2, 1, 2])

/-- The gate in service with a load of a kind. -/
def receiving (kind : LoadKind) (received : Nat) : State :=
  { inService with loader := some ⟨kind, .y, 190, received, .data⟩ }

theorem uncoded_receiving (r : Request) (f : RingFrame) (k : LoadKind) (n : Nat)
    (h : Uncoded r f inService) : Uncoded r f (receiving k n) :=
  ⟨⟨h.running, h.arrives, h.place, h.idle, h.length⟩, h.noKey⟩

/-- For each kind, the offset up to which the data fit and the one after it; a LOAD_END of a complete image
and one of an image that lacks a byte; and both without a load. -/
theorem test_witness_LoadDataAndEndInSequence :
    (∀ k, Uncoded .loadData (dataFrame 188) (receiving k 188) ∧
      Uncoded .loadData (dataFrame 189) (receiving k 189) ∧
      Uncoded .loadEnd (requestFrameOf 10 0 (List.replicate 8 0)) (receiving k 190) ∧
      Uncoded .loadEnd (requestFrameOf 10 0 (List.replicate 8 0)) (receiving k 189) ∧
      (receiving k 188).loader = some ⟨k, .y, 190, 188, .data⟩) ∧
    (Uncoded .loadData (dataFrame 188) inService ∧ inService.loader = none ∧
      Uncoded .loadEnd (requestFrameOf 10 0 (List.replicate 8 0)) inService) ∧
    numOf (requestParams (dataFrame 188).payload) 1 4 = 188 ∧
    ((requestParams (dataFrame 188).payload).drop 5).length = 2 ∧ 188 + 2 ≤ 190 ∧ 190 < 189 + 2 :=
  have hd := uncoded_in_service .loadData (dataFrame 188) (by decide +kernel) (by decide +kernel)
  have hd' := uncoded_in_service .loadData (dataFrame 189) (by decide +kernel) (by decide +kernel)
  have he := uncoded_in_service .loadEnd (requestFrameOf 10 0 (List.replicate 8 0)) (by decide +kernel)
    (by decide +kernel)
  ⟨fun k => ⟨uncoded_receiving _ _ k _ hd, uncoded_receiving _ _ k _ hd', uncoded_receiving _ _ k _ he,
      uncoded_receiving _ _ k _ he, rfl⟩, ⟨hd, rfl, he⟩, by decide +kernel, by decide +kernel, by decide,
    by decide⟩

/-- A gate whose slot 7 is LOCKED and slot 6 LOADED, both with card keys, so that no line key stands. -/
def cardKeyed : State :=
  { inService with
    keys := (inService.keys.set 7 (.locked ⟨1, .cardAuth, 1⟩)).set 6 (.loaded ⟨2, .cardCode, 1⟩) }

theorem uncoded_card_keyed (r : Request) (f : RingFrame) (ha : requestArrives inService r f = true)
    (hl : requestLengthGood r f.payload = true) : Uncoded r f cardKeyed :=
  ⟨⟨rfl, ha, by decide, rfl, hl⟩, by decide +kernel⟩

/-- A KEY_WRITE of a slot and role. -/
def writeFrame (slot role : Byte) : RingFrame := requestFrameOf 11 0 ([slot, role, 3] ++ toBE 16 0x33)

/-- Slot 8, the LOCKED slot 7, a role that is none, slot 0 EMPTY; and for KEY_LOCK slots 8, 7, 6, 0. -/
theorem test_witness_KeyChangesAreAsked :
    (Uncoded .keyWrite (writeFrame 8 1) cardKeyed ∧ Uncoded .keyWrite (writeFrame 7 1) cardKeyed ∧
      Uncoded .keyWrite (writeFrame 0 4) cardKeyed ∧ Uncoded .keyWrite (writeFrame 0 3) cardKeyed) ∧
    (Uncoded .keyLock (requestFrameOf 12 0 [8]) cardKeyed ∧
      Uncoded .keyLock (requestFrameOf 12 0 [6]) cardKeyed) ∧
    (slotAt cardKeyed 7 = .locked ⟨1, .cardAuth, 1⟩ ∧ slotAt cardKeyed 6 = .loaded ⟨2, .cardCode, 1⟩ ∧
      slotAt cardKeyed 0 = .empty) ∧ (∀ e, slotAt cardKeyed 0 ≠ .locked e) ∧
    keyRoleOf (numOf (requestParams (writeFrame 0 4).payload) 2 2) = none ∧
    keyRoleOf (numOf (requestParams (writeFrame 0 3).payload) 2 2) = some .line :=
  ⟨⟨uncoded_card_keyed _ _ (by decide +kernel) (by decide +kernel),
      uncoded_card_keyed _ _ (by decide +kernel) (by decide +kernel),
      uncoded_card_keyed _ _ (by decide +kernel) (by decide +kernel),
      uncoded_card_keyed _ _ (by decide +kernel) (by decide +kernel)⟩,
    ⟨uncoded_card_keyed _ _ (by decide +kernel) (by decide +kernel),
      uncoded_card_keyed _ _ (by decide +kernel) (by decide +kernel)⟩,
    by decide +kernel, not_locked (by decide +kernel), by decide +kernel, by decide +kernel⟩

/-- A change of slot 0, from EMPTY to LOADED or LOCKED, under way. -/
def changing (isLock : Bool) : State :=
  { inService with
    ring := { inService.ring with held := 1 }
    decoder :=
      { state := .working
        change := some ⟨0, if isLock then .locked (lineEntry 2) else .loaded (lineEntry 2)⟩
        inHand := some ⟨.keyLock, 3, 0, [0], List.replicate 8 0, false⟩ } }

theorem test_witness_KeyChangeCompletes :
    ∀ isLock, (changing isLock).power = .running ∧
      (changing isLock).decoder.inHand = some ⟨.keyLock, 3, 0, [0], List.replicate 8 0, false⟩ ∧
      (∀ e, slotAt (changing isLock) 0 ≠ .locked e) ∧
      (changing isLock).decoder.change =
        some ⟨0, if isLock then .locked (lineEntry 2) else .loaded (lineEntry 2)⟩ :=
  fun _ => ⟨rfl, rfl, not_locked rfl, rfl⟩

/-- A code that names no request; a request that does, at an idle and at a working decoder, of a good
and of a bad length. -/
theorem test_witness_UnknownBadLengthAndBusy :
    inService.power = .running ∧ answerUsed inService.ring < 4 ∧
      receives inService (requestFrameOf 13 0 []) = true ∧
      strips inService (requestFrameOf 13 0 []) = false ∧
      takesRequest inService (requestFrameOf 13 0 []) = true ∧
      requestOf (numOf (requestFrameOf 13 0 []).payload 1 1) = none ∧
      receives inService (requestFrameOf 2 0 [1]) = true ∧
      takesRequest inService (requestFrameOf 2 0 [1]) = true ∧
      requestOf (numOf (requestFrameOf 2 0 [1]).payload 1 1) = some .status ∧
      inService.decoder.state = .idle ∧ requestLengthGood .status (requestFrameOf 2 0 [1]).payload = false ∧
      (changing true).decoder.state ≠ .idle ∧ answerUsed (changing true).ring < 4 := by decide +kernel

/-- A protected request at a gate under a line key, at a request time of line time and offset. -/
theorem keyed_judges (t : Nat) (ha : requestArrives keyedGate .gate (requestFrameOf 6 t [2]) = true)
    (hl : requestLengthGood .gate (requestFrameOf 6 t [2]).payload = true) :
    Judged .gate (requestFrameOf 6 t [2]) keyedGate := ⟨rfl, ha, by decide, rfl, hl⟩

/-- No line key; a line key with a request time 11 s behind, and 10 s behind and before. -/
theorem test_witness_ProtectionComesBeforeTheOwner :
    Judged .gate (requestFrameOf 6 0 [2]) inService ∧ isOpenRequest .gate = false ∧
      lineKey inService = none ∧ lineKey keyedGate = some 0x22 ∧ keyedGate.clock.isSet = true ∧
      (Judged .gate (requestFrameOf 6 777599989 [2]) keyedGate ∧
        numOf (requestFrameOf 6 777599989 [2]).payload 2 5 + 10 < keyedGate.clock.lineTime) ∧
      (Judged .gate (requestFrameOf 6 777599990 [2]) keyedGate ∧
        keyedGate.clock.lineTime ≤ numOf (requestFrameOf 6 777599990 [2]).payload 2 5 + 10) ∧
      (Judged .gate (requestFrameOf 6 777600010 [2]) keyedGate ∧
        numOf (requestFrameOf 6 777600010 [2]).payload 2 5 ≤ keyedGate.clock.lineTime + 10) :=
  ⟨judged_in_service _ _ (by decide +kernel) (by decide +kernel), rfl, by decide +kernel,
    by decide +kernel, rfl,
    ⟨keyed_judges _ (by decide +kernel) (by decide +kernel), by decide +kernel⟩,
    ⟨keyed_judges _ (by decide +kernel) (by decide +kernel), by decide +kernel⟩,
    ⟨keyed_judges _ (by decide +kernel) (by decide +kernel), by decide +kernel⟩⟩

/-- A request in hand whose code verifies under key 1, or a code of zeros. -/
def inHandWith (r : Request) (good : Bool) : InHand :=
  let h : InHand := ⟨r, 3, 777600000, [], List.replicate 8 0, true⟩
  if good then { h with code := codeOf 8 1 (lineCodeInput h) } else h

/-- The gate while its ring engine computes. -/
def computing (h : InHand) (job : RingJob) : State :=
  { loadingAt .read .coding [5] 1 with
    ringEngine := some job
    ring := { inService.ring with held := 1 }
    decoder := { state := .working, change := none, inHand := some h } }

/-- A code that fails and one that verifies for each owner named; a key write under the strap; a complete
load under a line key; and a table code that verifies and one that fails. -/
theorem test_witness_RingEngineResultIsJudged :
    (∀ h job, (computing h job).power = .running ∧ (computing h job).decoder.inHand = some h ∧
      (computing h job).ringEngine = some job ∧
      (computing h job).loader = some ⟨.fare, .y, 1, 1, .coding⟩) ∧
    (inHandWith .gate false).code ≠ codeOf 8 1 (lineCodeInput (inHandWith .gate false)) ∧
    (∀ r ∈ [Request.keyWrite, .keyLock, .restart, .countersClear, .gate, .loadEnd],
      (inHandWith r true).request = r ∧
        (inHandWith r true).code = codeOf 8 1 (lineCodeInput (inHandWith r true))) ∧
    (let h : InHand := ⟨.keyWrite, 3, 777600000, [0, 3, 3] ++ toBE 16 0x33, List.replicate 8 0, true⟩
     numOf h.params 1 1 ≤ 7 ∧ keyRoleOf (numOf h.params 2 2) = some .line ∧
       slotAt (computing h (.lineCode 1)) 0 = .empty) ∧
    lineKey { computing (inHandWith .loadEnd true) (.lineCode 0x22) with keys := keyedGate.keys } =
      some 0x22 ∧
    (LoadPhase.code 0 ≠ .coding ∧
      (({ computing (inHandWith .loadEnd true) (.tableCode 1 []) with
        loader := some ⟨.fare, .y, 1, 1, .code 0⟩ } : State).loader.map Loading.phase) =
        some (.code 0)) ∧
    (({ inHandWith .loadEnd true with params := codeOf 8 1 (tableCodeInput .fare 1 [5]) } : InHand).params =
        codeOf 8 1 (tableCodeInput .fare 1 [5]) ∧
      (inHandWith .loadEnd true).params ≠ codeOf 8 1 (tableCodeInput .fare 1 [5])) :=
  ⟨fun _ _ => ⟨rfl, rfl, rfl, rfl⟩, by decide +kernel, by decide +kernel, by decide +kernel,
    by decide +kernel, by decide +kernel, by decide +kernel⟩

/-- The end of the RESTART answer in a state. -/
def restartingIn (s : State) : State := { s with ring := restarting.ring, decoder := restarting.decoder }

/-- R48: a claim is abandoned, with its record, and its INTENT leaves the table. -/
theorem test_restart_abandons :
    let t := run .warmRestart (restartingIn (flying .claiming 70 none))
    t.journal.records.map (fun r => (r.kind, r.refusal)) = [(.refused, some .cardLost)] ∧
      t.sightings = [] := by decide +kernel

/-- A gate at rest; a transaction of each kind of state, and one whose held context is overdue; and two grants
withdrawn. -/
theorem test_witness_WarmRestartActsOnEveryBlock :
    (restarting.power = .running ∧ restarting.decoder.state = .restartPending ∧
      restarting.decoder.change = none ∧
      restarting.ring.sending = some ⟨answerFrame 3 7 .done [], .answer⟩ ∧
      (answerFrame 3 7 .done []).payload = [7, 0] ∧ restarting.ring.sent.length < 16 ∧
      (restarting.chans.get .a).state ≠ .off ∧ restarting.loader = none ∧
      restarting.taps = ⟨Tap.cold, Tap.cold⟩ ∧ restarting.gate.queue = [] ∧
      sideEnabled (run .warmRestart restarting) .a = true) ∧
    (∀ s, (restartingIn s).power = s.power ∧ (restartingIn s).decoder = restarting.decoder ∧
      (restartingIn s).ring = restarting.ring) ∧
    ((∃ u, Restarts .a (restartingIn (tapping .b .reading none id)) u) ∧
      (∃ u, Restarts .a (restartingIn (tapping .a .reading none id)) u) ∧
      (∃ u, Restarts .a (restartingIn (flying .claiming 70 none)) u) ∧
      (∃ u, Restarts .a (restartingIn (tearing 1 [])) u) ∧
      (∃ u, Restarts .a (restartingIn (tearing 1 [tornContextOf cardUid 777600010 (some .a) true])) u) ∧
      ∃ u, Restarts .b
        (restartingIn
          { tapping .b .finishing none id with
            journal :=
              { State.reset.journal with
                records :=
                  [{ stampRecord inService .exit cardUid 1 .b with isOpen := true }] } }) u) ∧
    (∃ w, GrantsWithdrawn false (restartingIn inService) [grantOf .b 89 false, grantOf .a 13 false] w) :=
  ⟨by decide +kernel, fun _ => ⟨rfl, rfl, rfl⟩,
    ⟨⟨_, .ended (.inr (.inl rfl))⟩,
      ⟨abandonedState .a [] [] (restartingIn (tapping .a .reading none id)), .abandoned rfl (by decide)⟩,
      ⟨_, .claiming _ rfl rfl .none⟩,
      ⟨_, .torn _ _ _ _ _ _ _ rfl (.tail _ (.head _)) rfl rfl rfl rfl (show (0 : Nat) ≤ 32 by decide)
        (.added rfl rfl (show (0 : Nat) < 32 by decide))
        (tearHandOff_handedOff rfl rfl rfl rfl (show (0 : Nat) ≤ 32 by decide)
          (.added rfl rfl (show (0 : Nat) < 32 by decide)))⟩,
      ⟨_, .torn _ _ _ _ _ _ _ rfl (.tail _ (.head _)) rfl rfl rfl rfl (show (1 : Nat) ≤ 32 by decide)
        (.overdue _ rfl rfl rfl rfl)
        (tearHandOff_handedOff rfl rfl rfl rfl (show (1 : Nat) ≤ 32 by decide)
          (.overdue _ rfl rfl rfl rfl))⟩,
      ⟨_, .finished [] _ [] rfl rfl rfl rfl rfl rfl (by decide)⟩⟩,
    ⟨_, grantsWithdrawn_iff.mpr rfl⟩⟩

/-- A restart period; a state without a change of a key slot, and one with a change. -/
theorem test_witness_RepeaterModeResetAndPower :
    ((run .warmRestart restarting).power = .running ∧
      (run .warmRestart restarting).ring.restartPeriod.isSome) ∧
    inService.decoder.change = none ∧
    (changing true).decoder.change = some ⟨0, .locked (lineEntry 2)⟩ ∧
    (∀ e, slotAt (changing true) 0 ≠ .locked e) :=
  ⟨by decide +kernel, rfl, rfl, not_locked rfl⟩

theorem test_witness_ColdStartState : inService.decoder.change = none := rfl

/-- The rounding above, at and below the half unit, and the largest product; a minute within a band, and one
before the first; an entry while IN at the same station early and late, and at another; one in the window of
a chain and after it; an exit while OUT and while IN; and an accept of each plan. -/
theorem test_witness_FareIsRounded :
    (10 ∈ [1, 2, 5, 10, 20, 50, 100] ∧ 2 * (2250001 % (10000 * 10)) > 10000 * 10 ∧
      2 * (2250000 % (10000 * 10)) = 10000 * 10 ∧ 2 * (2249999 % (10000 * 10)) < 10000 * 10 ∧
      20000 * 200 * 100 ≤ 20000 * 200 * 100) ∧
    ((chainTable.bands.map Band.start).Pairwise (· < ·) ∧ chainTable.bands[1]? = some ⟨420, 120⟩ ∧
      chainTable.bands[2]? = some ⟨600, 100⟩ ∧ (420 ≤ 599 ∧ 599 < 600) ∧
      [(⟨300, 100⟩ : Band), ⟨600, 100⟩][0]? = some ⟨300, 100⟩ ∧ 299 < 300) ∧
    (chainIn.state = journeyIn ∧ chainOut.state ≠ journeyIn ∧ chainIn.entryStation = 1101 ∧
      chainIn.entryTime ≤ 12960504 ∧ 12960504 - chainIn.entryTime < chainTable.passback ∧
      ¬ 12960505 - chainIn.entryTime < chainTable.passback ∧
      0 < chainTable.transferWindow ∧ chainOut.legs < chainTable.maxLegs ∧
      12960580 - chainOut.lastExit ≤ chainTable.transferWindow ∧
      ¬ 12960581 - chainOut.lastExit ≤ chainTable.transferWindow ∧ 1 ≤ chainTable.zones ∧
      1 ≤ chainTable.bandCount) ∧
    (let plan := fun i => match fareUnit i with | .accept a => some a.plan | .refusal _ => none
     plan (fareAt .a chainIn 1102 0 12960504) = some .entryPenalty ∧
       plan (fareAt .a chainOut 1304 3 12960580) = some .entryTransfer ∧
       plan (fareAt .a chainOut 1304 3 12960581) = some .entryNew ∧
       plan (fareAt .b chainOut 1304 3 12960581) = some .exitPenalty ∧
       plan (fareAt .b chainIn 1304 3 12960520) = some .exitFare) := by
  refine ⟨by decide, ?_, by decide, by decide +kernel⟩
  simp [chainTable]

/-- A sighting of each kind, and a transaction with a decision. -/
theorem test_witness_CloneCheckFinds :
    (seen .commit 70 71).kind = .commit ∧ 70 < (seen .commit 70 71).result ∧
      (seen .torn 70 71).kind = .torn ∧ (seen .unused 70 70).kind = .unused ∧
      (seen .intent 70 71).kind = .intent ∧
      ((confirmingAt .a .entry).taps.get .a).record.decision =
        some ⟨.entry, 0, 1500, noFareFlags, 41, 42⟩ := by decide

end Sys2Proof.Tests
end

/-! ## The Fare Unit and the Record Composer (chapter 3) -/

namespace Sys2Proof.Machine

/-! ### The rounded fare (R63) -/

theorem roundFare_of_above {product unit : Nat}
    (h : 10000 * unit < 2 * (product % (10000 * unit))) :
    roundFare product unit = (product / (10000 * unit) + 1) * unit := by
  rw [roundFare, if_pos h]

theorem roundFare_of_atMost {product unit : Nat}
    (h : 2 * (product % (10000 * unit)) ≤ 10000 * unit) :
    roundFare product unit = product / (10000 * unit) * unit := by
  rw [roundFare, if_neg (Nat.not_lt.mpr h)]

theorem unit_dvd_roundFare (product unit : Nat) : unit ∣ roundFare product unit :=
  Nat.dvd_mul_left _ _

/-- A bound `n` of whole units on the product bounds the rounded fare: the quotient is below `n`, so that
rounding up does not pass it, or it is `n` and leaves no remainder to round. -/
theorem roundFare_le_of_le_units {product unit n : Nat} (h : product ≤ 10000 * unit * n) :
    roundFare product unit ≤ n * unit := by
  have hq : product / (10000 * unit) ≤ n := Nat.div_le_of_le_mul h
  by_cases hr : 10000 * unit < 2 * (product % (10000 * unit))
  · rw [roundFare_of_above hr]
    have hne : product / (10000 * unit) ≠ n := by
      intro hn
      have hsum := Nat.div_add_mod product (10000 * unit)
      rw [hn] at hsum
      omega
    exact Nat.mul_le_mul_right _ (by omega)
  · rw [roundFare_of_atMost (Nat.not_lt.mp hr)]
    exact Nat.mul_le_mul_right _ hq

/-- The largest product is a whole number of each rounding unit, and comes to 40,000 cents. -/
theorem roundFare_le_max {product unit : Nat} (hu : unit ∈ [1, 2, 5, 10, 20, 50, 100])
    (h : product ≤ 20000 * 200 * 100) : roundFare product unit ≤ 40000 := by
  have hd : unit ∣ 40000 := by
    revert unit
    decide
  obtain ⟨n, hn⟩ := hd
  calc roundFare product unit ≤ n * unit :=
        roundFare_le_of_le_units (by rw [Nat.mul_assoc, ← hn]; exact h)
    _ = 40000 := by rw [hn, Nat.mul_comm]

/-! ### The band of a minute (R52) -/

theorem lastBandAt_append (m : Nat) (xs ys : List Band) (i found : Nat) :
    lastBandAt m i found (xs ++ ys) =
      lastBandAt m (i + xs.length) (lastBandAt m i found xs) ys := by
  induction xs generalizing i found with
  | nil => rfl
  | cons x xs ih =>
    rw [List.cons_append, lastBandAt, ih, lastBandAt, List.length_cons, Nat.add_right_comm,
      Nat.add_assoc]

theorem lastBandAt_of_noneStarted {m : Nat} {bands : List Band}
    (h : ∀ b ∈ bands, m < b.start) (i found : Nat) : lastBandAt m i found bands = found := by
  induction bands generalizing i with
  | nil => rfl
  | cons b rest ih =>
    obtain ⟨hb, hrest⟩ := List.forall_mem_cons.mp h
    rw [lastBandAt, if_neg (Nat.not_le.mpr hb), ih hrest]

/-- Where the bands ascend and the first has not started, none has. -/
theorem noneStarted_of_head {m : Nat} {bands : List Band}
    (asc : (bands.map Band.start).Pairwise (· < ·)) (h : ∀ c, bands[0]? = some c → m < c.start) :
    ∀ b ∈ bands, m < b.start := by
  cases bands with
  | nil => simp
  | cons c rest =>
    obtain ⟨hlater, -⟩ := List.pairwise_cons.mp (List.pairwise_map.mp asc)
    have hc : m < c.start := h c rfl
    exact List.forall_mem_cons.mpr ⟨hc, fun b hb => Nat.lt_trans hc (hlater b hb)⟩

theorem bandAt_of_started {bands : List Band} {m n : Nat} {b : Band}
    (asc : (bands.map Band.start).Pairwise (· < ·)) (hb : bands[n]? = some b) (hm : b.start ≤ m)
    (hnext : ∀ c, bands[n + 1]? = some c → m < c.start) : bandAt bands m = n := by
  obtain ⟨hn, rfl⟩ := List.getElem?_eq_some_iff.mp hb
  have hlater : ∀ c ∈ bands.drop (n + 1), m < c.start := by
    refine noneStarted_of_head ?_ (by simpa using hnext)
    rw [List.map_drop]
    exact asc.drop
  have hlen : (bands.take n).length = n := List.length_take_of_le (Nat.le_of_lt hn)
  have hsplit : bands = bands.take n ++ bands[n] :: bands.drop (n + 1) := by
    rw [← List.drop_eq_getElem_cons hn, List.take_append_drop]
  rw [bandAt]
  generalize bands.length - 1 = found
  rw [hsplit, lastBandAt_append, lastBandAt, if_pos hm, lastBandAt_of_noneStarted hlater, hlen,
    Nat.zero_add]

theorem bandAt_of_noneStarted {bands : List Band} {m : Nat} (h : ∀ b ∈ bands, m < b.start) :
    bandAt bands m = bands.length - 1 :=
  lastBandAt_of_noneStarted h 0 _

/-! ### The cap step (R54) and the clamp (R60) -/

theorem capStep_le (cap base x : Nat) : capStep cap base x ≤ x := by
  unfold capStep
  split
  · exact Nat.le_refl x
  · exact Nat.min_le_left _ _

theorem capStep_le_room {cap : Nat} (h : cap ≠ 0) (base x : Nat) : capStep cap base x ≤ cap - base := by
  rw [capStep, if_neg h]
  exact Nat.min_le_right _ _

/-- The clamp as R60 says it: what the table prices stands, and the rest is taken as the last. -/
theorem clampTo_eq (count z : Nat) : clampTo count z = if z < count then z else count - 1 := by
  unfold clampTo
  split <;> split <;> omega

theorem clampTo_ne_iff {count : Nat} (h : 1 ≤ count) (z : Nat) : clampTo count z ≠ z ↔ count ≤ z := by
  unfold clampTo
  split <;> omega

section
variable {i : FareInput}

theorem fareClamped_eq (hz : 1 ≤ i.table.zones) (hb : 1 ≤ i.table.bandCount) :
    fareClamped i =
      decide (clampTo i.table.zones i.card.originZone ≠ i.card.originZone ∨
        clampTo i.table.zones i.zone ≠ i.zone ∨
        clampTo i.table.bandCount i.card.originBand ≠ i.card.originBand) := by
  simp only [fareClamped, clampTo_ne_iff hz, clampTo_ne_iff hb, Bool.decide_or, Bool.or_assoc]

/-! ### The tests of an entry (R55, R57) -/

theorem passbackFails_iff :
    passbackFails i = true ↔
      i.card.entryStation = i.station ∧
        (if i.card.entryTime ≤ i.now then i.now - i.card.entryTime else 0) < i.table.passback := by
  have elapsed : (if i.card.entryTime ≤ i.now then i.now - i.card.entryTime else 0) =
      i.now - i.card.entryTime := by
    split <;> omega
  rw [elapsed]
  simp only [passbackFails, Bool.and_eq_true, decide_eq_true_eq]

theorem chainContinues_iff :
    chainContinues i = true ↔
      0 < i.table.transferWindow ∧ i.card.legs < i.table.maxLegs ∧ i.card.lastExit ≤ i.now ∧
        i.now - i.card.lastExit ≤ i.table.transferWindow := by
  simp only [chainContinues, Bool.and_eq_true, decide_eq_true_eq, and_assoc]

/-! ### The Fare Unit case by case -/

theorem fareUnit_passback (side : i.side = .a) (state : i.card.state = journeyIn)
    (h : passbackFails i = true) : fareUnit i = .refusal .passback := by
  simp only [fareUnit, side, fareEntry, if_pos state, if_pos h]

theorem fareUnit_entryPenalty (side : i.side = .a) (state : i.card.state = journeyIn)
    (h : ¬ passbackFails i = true) :
    fareUnit i = entryEnd i .entryPenalty (farePenalty i) ⟨false, farePenaltyCapped i, true, false⟩ := by
  simp only [fareUnit, side, fareEntry, if_pos state, if_neg h]

theorem fareUnit_entryTransfer (side : i.side = .a) (state : i.card.state ≠ journeyIn)
    (h : chainContinues i = true) :
    fareUnit i = entryEnd i .entryTransfer 0 ⟨false, false, false, true⟩ := by
  simp only [fareUnit, side, fareEntry, if_neg state, if_pos h]

theorem fareUnit_entryNew (side : i.side = .a) (state : i.card.state ≠ journeyIn)
    (h : ¬ chainContinues i = true) :
    fareUnit i = entryEnd i .entryNew 0 ⟨false, false, false, false⟩ := by
  simp only [fareUnit, side, fareEntry, if_neg state, if_neg h]

theorem fareUnit_exitPenalty (side : i.side = .b) (state : i.card.state ≠ journeyIn) :
    fareUnit i = exitEnd i .exitPenalty (farePenalty i) ⟨false, farePenaltyCapped i, true, false⟩ := by
  simp only [fareUnit, side, fareExit, if_neg state]

theorem fareUnit_exitFare (side : i.side = .b) (state : i.card.state = journeyIn) :
    fareUnit i =
      exitEnd i .exitFare (fareCharged i)
        ⟨fareClamped i, capApplies (fareClass i).dailyCap (fareBase i) (fareCeiled i), false,
          decide (2 ≤ i.card.legs)⟩ := by
  simp only [fareUnit, side, fareExit, if_pos state]

/-! ### The balance checks (R58, R65) -/

/-- The Fare Unit judges a charge by the entry minimum: LOW_BALANCE below it, else the accept. -/
def Enters (i : FareInput) (plan : Plan) (charge : Nat) (flags : FareFlags) : Prop :=
  if i.card.balance - (charge : Int) < ((fareClass i).entryMinimum : Int) then
    fareUnit i = .refusal .lowBalance
  else fareUnit i = .accept ⟨plan, charge, i.card.balance - (charge : Int), flags⟩

/-- The Fare Unit judges a charge by the overdraft limit: INSUFFICIENT below it, else the accept. -/
def Leaves (i : FareInput) (plan : Plan) (charge : Nat) (flags : FareFlags) : Prop :=
  if i.card.balance - (charge : Int) < -(i.table.overdraft : Int) then
    fareUnit i = .refusal .insufficient
  else fareUnit i = .accept ⟨plan, charge, i.card.balance - (charge : Int), flags⟩

variable {plan : Plan} {charge : Nat} {flags : FareFlags} {a : FareAccept}

theorem enters_of_entryEnd (h : fareUnit i = entryEnd i plan charge flags) :
    Enters i plan charge flags := by
  by_cases floor : i.card.balance - (charge : Int) < ((fareClass i).entryMinimum : Int)
  · simp only [Enters, h, entryEnd, if_pos floor]
  · simp only [Enters, h, entryEnd, if_neg floor]

theorem leaves_of_exitEnd (h : fareUnit i = exitEnd i plan charge flags) :
    Leaves i plan charge flags := by
  by_cases floor : i.card.balance - (charge : Int) < -(i.table.overdraft : Int)
  · simp only [Leaves, h, exitEnd, overdrawn, decide_eq_true_eq, if_pos floor]
  · simp only [Leaves, h, exitEnd, overdrawn, decide_eq_true_eq, if_neg floor]

theorem accept_of_entryEnd (h : entryEnd i plan charge flags = .accept a) :
    ((fareClass i).entryMinimum : Int) ≤ i.card.balance - (charge : Int) ∧
      a = ⟨plan, charge, i.card.balance - (charge : Int), flags⟩ := by
  unfold entryEnd at h
  split at h
  · cases h
  · next floor => exact ⟨Int.not_lt.mp floor, by cases h; rfl⟩

theorem accept_of_exitEnd (h : exitEnd i plan charge flags = .accept a) :
    -(i.table.overdraft : Int) ≤ i.card.balance - (charge : Int) ∧
      a = ⟨plan, charge, i.card.balance - (charge : Int), flags⟩ := by
  unfold exitEnd at h
  split at h
  · cases h
  · next floor =>
    rw [overdrawn, decide_eq_true_eq] at floor
    exact ⟨Int.not_lt.mp floor, by cases h; rfl⟩

/-! ### What the Fare Unit accepts -/

/-- The accepts of the Fare Unit, one for each plan, with the tests that each has passed. -/
inductive Accepted (i : FareInput) : FareAccept → Prop where
  | entryNew (side : i.side = .a) (state : i.card.state ≠ journeyIn)
      (ended : ¬ chainContinues i = true)
      (floor : ((fareClass i).entryMinimum : Int) ≤ i.card.balance - ((0 : Nat) : Int)) :
      Accepted i ⟨.entryNew, 0, i.card.balance - ((0 : Nat) : Int), ⟨false, false, false, false⟩⟩
  | entryTransfer (side : i.side = .a) (state : i.card.state ≠ journeyIn)
      (continued : chainContinues i = true)
      (floor : ((fareClass i).entryMinimum : Int) ≤ i.card.balance - ((0 : Nat) : Int)) :
      Accepted i ⟨.entryTransfer, 0, i.card.balance - ((0 : Nat) : Int), ⟨false, false, false, true⟩⟩
  | entryPenalty (side : i.side = .a) (state : i.card.state = journeyIn)
      (passed : ¬ passbackFails i = true)
      (floor : ((fareClass i).entryMinimum : Int) ≤ i.card.balance - (farePenalty i : Int)) :
      Accepted i ⟨.entryPenalty, farePenalty i, i.card.balance - (farePenalty i : Int),
        ⟨false, farePenaltyCapped i, true, false⟩⟩
  | exitFare (side : i.side = .b) (state : i.card.state = journeyIn)
      (floor : -(i.table.overdraft : Int) ≤ i.card.balance - (fareCharged i : Int)) :
      Accepted i ⟨.exitFare, fareCharged i, i.card.balance - (fareCharged i : Int),
        ⟨fareClamped i, capApplies (fareClass i).dailyCap (fareBase i) (fareCeiled i), false,
          decide (2 ≤ i.card.legs)⟩⟩
  | exitPenalty (side : i.side = .b) (state : i.card.state ≠ journeyIn)
      (floor : -(i.table.overdraft : Int) ≤ i.card.balance - (farePenalty i : Int)) :
      Accepted i ⟨.exitPenalty, farePenalty i, i.card.balance - (farePenalty i : Int),
        ⟨false, farePenaltyCapped i, true, false⟩⟩

theorem accepted_of_fareUnit (h : fareUnit i = .accept a) : Accepted i a := by
  cases side : i.side with
  | a =>
    by_cases state : i.card.state = journeyIn
    · by_cases passback : passbackFails i = true
      · rw [fareUnit_passback side state passback] at h
        cases h
      · rw [fareUnit_entryPenalty side state passback] at h
        obtain ⟨floor, rfl⟩ := accept_of_entryEnd h
        exact .entryPenalty side state passback floor
    · by_cases chain : chainContinues i = true
      · rw [fareUnit_entryTransfer side state chain] at h
        obtain ⟨floor, rfl⟩ := accept_of_entryEnd h
        exact .entryTransfer side state chain floor
      · rw [fareUnit_entryNew side state chain] at h
        obtain ⟨floor, rfl⟩ := accept_of_entryEnd h
        exact .entryNew side state chain floor
  | b =>
    by_cases state : i.card.state = journeyIn
    · rw [fareUnit_exitFare side state] at h
      obtain ⟨floor, rfl⟩ := accept_of_exitEnd h
      exact .exitFare side state floor
    · rw [fareUnit_exitPenalty side state] at h
      obtain ⟨floor, rfl⟩ := accept_of_exitEnd h
      exact .exitPenalty side state floor

/-! ### The charge and the balance after (R66) -/

theorem Accepted.balanceAfter_eq (h : Accepted i a) :
    a.balanceAfter = i.card.balance - (a.charge : Int) := by
  cases h <;> rfl

theorem Accepted.balanceAfter_le (h : Accepted i a) : a.balanceAfter ≤ i.card.balance := by
  have := h.balanceAfter_eq
  omega

theorem Accepted.balanceAfter_nonneg (h : Accepted i a) (side : i.side = .a) :
    0 ≤ a.balanceAfter := by
  cases h with
  | entryNew _ _ _ floor | entryTransfer _ _ _ floor | entryPenalty _ _ _ floor =>
    exact Int.le_trans (Int.natCast_nonneg _) floor
  | exitFare other | exitPenalty other => cases side.symm.trans other

theorem Accepted.overdraft_le_balanceAfter (h : Accepted i a) (side : i.side = .b) :
    -(i.table.overdraft : Int) ≤ a.balanceAfter := by
  cases h with
  | entryNew other | entryTransfer other | entryPenalty other => cases side.symm.trans other
  | exitFare _ _ floor | exitPenalty _ _ floor => exact floor

/-- Each charge is 0 or comes out of the cap step, on the incomplete fare or on the fare after the
ceiling. -/
theorem Accepted.charge_cases (h : Accepted i a) :
    a.charge = 0 ∨ ∃ x, a.charge = capStep (fareClass i).dailyCap (fareBase i) x ∧
      (x = i.table.incompleteFare ∨ x ≤ i.table.maxFare) := by
  cases h with
  | entryNew | entryTransfer => exact .inl rfl
  | entryPenalty | exitPenalty => exact .inr ⟨_, rfl, .inl rfl⟩
  | exitFare => exact .inr ⟨_, rfl, .inr (Nat.min_le_right _ _)⟩

theorem Accepted.charge_le_maxFare (h : Accepted i a)
    (hmax : i.table.incompleteFare ≤ i.table.maxFare) : a.charge ≤ i.table.maxFare := by
  obtain h0 | ⟨x, hx, hle⟩ := h.charge_cases
  · omega
  · have := capStep_le (fareClass i).dailyCap (fareBase i) x
    omega

theorem Accepted.charge_le_room (h : Accepted i a) (hcap : (fareClass i).dailyCap ≠ 0) :
    a.charge ≤ (fareClass i).dailyCap - fareBase i := by
  obtain h0 | ⟨x, hx, -⟩ := h.charge_cases
  · omega
  · exact hx ▸ capStep_le_room hcap _ x

/-! ### The record of each plan (R67) -/

/-- What every plan writes: TC, balance, the day roll and the format. -/
def rolledJourney (i : FareInput) (a : FareAccept) : Journey :=
  { i.card with
    tc := i.card.tc + 1, balance := i.card.balance - (a.charge : Int)
    dayAccumulated := satAdd (fareBase i) a.charge, dayNumber := fareDay i, format := 1 }

/-- What every entry plan writes besides. -/
def enteredJourney (i : FareInput) (a : FareAccept) : Journey :=
  { rolledJourney i a with state := journeyIn, entryStation := i.station, entryTime := i.now }

/-- What an entry that begins a chain writes besides. -/
def begunJourney (i : FareInput) (a : FareAccept) : Journey :=
  { enteredJourney i a with
    legs := 1, originZone := i.zone, originBand := bandAt i.table.bands (i.now % 1440)
    chainPaid := 0 }

/-- What every exit plan writes besides. -/
def leftJourney (i : FareInput) (a : FareAccept) : Journey :=
  { rolledJourney i a with state := journeyOut, lastExit := i.now }

theorem Accepted.composeJourney_begun (h : Accepted i a)
    (hplan : a.plan = .entryNew ∨ a.plan = .entryPenalty) :
    i.side = .a ∧ composeJourney i a = begunJourney i a := by
  cases h with
  | entryNew side =>
    refine ⟨side, ?_⟩
    simp only [composeJourney, begunJourney, enteredJourney, rolledJourney, Int.ofNat_zero, Int.sub_zero]
  | entryPenalty side => exact ⟨side, rfl⟩
  | entryTransfer | exitFare | exitPenalty => simp at hplan

theorem Accepted.composeJourney_transfer (h : Accepted i a) (hplan : a.plan = .entryTransfer) :
    i.side = .a ∧ composeJourney i a = { enteredJourney i a with legs := i.card.legs + 1 } := by
  cases h with
  | entryTransfer side =>
    refine ⟨side, ?_⟩
    simp only [composeJourney, enteredJourney, rolledJourney, Int.ofNat_zero, Int.sub_zero]
  | entryNew | entryPenalty | exitFare | exitPenalty => cases hplan

theorem Accepted.composeJourney_exitFare (h : Accepted i a) (hplan : a.plan = .exitFare) :
    i.side = .b ∧
      composeJourney i a =
        { leftJourney i a with chainPaid := satAdd i.card.chainPaid a.charge } := by
  cases h with
  | exitFare side => exact ⟨side, rfl⟩
  | entryNew | entryTransfer | entryPenalty | exitPenalty => cases hplan

theorem Accepted.composeJourney_exitPenalty (h : Accepted i a) (hplan : a.plan = .exitPenalty) :
    i.side = .b ∧ composeJourney i a = { leftJourney i a with legs := 0, chainPaid := 0 } := by
  cases h with
  | exitPenalty side => exact ⟨side, rfl⟩
  | entryNew | entryTransfer | entryPenalty | exitFare => cases hplan

/-! ### The limits of the record (R66) -/

theorem satAdd_le (x y : Nat) : satAdd x y ≤ 65535 := Nat.min_le_right _ _

/-- A plan that keeps the balance charges 0, so that the balance after of the accept is always written. -/
theorem Accepted.composeJourney_balance (h : Accepted i a) :
    (composeJourney i a).balance = a.balanceAfter := by
  cases h with
  | entryNew | entryTransfer => exact (Int.sub_zero _).symm
  | entryPenalty | exitFare | exitPenalty => rfl

theorem composeJourney_tc (i : FareInput) (a : FareAccept) :
    (composeJourney i a).tc = i.card.tc + 1 := by
  unfold composeJourney
  cases a.plan <;> rfl

theorem composeJourney_dayAccumulated_le (i : FareInput) (a : FareAccept) :
    (composeJourney i a).dayAccumulated ≤ 65535 := by
  unfold composeJourney
  cases a.plan <;> exact satAdd_le _ _

theorem Accepted.chainPaid_le (h : Accepted i a) (hcard : i.card.chainPaid ≤ 65535) :
    (composeJourney i a).chainPaid ≤ 65535 := by
  cases h with
  | entryNew | entryPenalty | exitPenalty => exact Nat.zero_le _
  | entryTransfer => exact hcard
  | exitFare => exact satAdd_le _ _

theorem Accepted.legs_le (h : Accepted i a) (hcard : i.card.legs ≤ 3) (htable : i.table.maxLegs ≤ 3) :
    (composeJourney i a).legs ≤ 3 := by
  cases h with
  | entryNew | entryPenalty => exact Nat.le_add_left 1 2
  | entryTransfer _ _ continued =>
    obtain ⟨-, hlegs, -⟩ := chainContinues_iff.mp continued
    exact Nat.le_trans hlegs htable
  | exitFare => exact hcard
  | exitPenalty => exact Nat.zero_le 3

/-- R68 takes the balance after and the TC of the record that the same accept composes. -/
theorem Accepted.historyFields_eq (h : Accepted i a) :
    historyFields i a =
      { kind := if a.plan = .exitPenalty then 3 else 2, station := i.station, time := i.now
        amount := a.charge, balanceAfter := (composeJourney i a).balance
        tcAfter := (composeJourney i a).tc } := by
  rw [h.composeJourney_balance, composeJourney_tc, historyFields]

/-! ### The clauses of the Fare Unit -/

theorem fareUnit_entryIn (side : i.side = .a) (state : i.card.state = journeyIn) :
    if i.card.entryStation = i.station ∧
        (if i.card.entryTime ≤ i.now then i.now - i.card.entryTime else 0) < i.table.passback then
      fareUnit i = .refusal .passback
    else Enters i .entryPenalty (farePenalty i) ⟨false, farePenaltyCapped i, true, false⟩ := by
  by_cases h : passbackFails i = true
  · rw [if_pos (passbackFails_iff.mp h)]
    exact fareUnit_passback side state h
  · rw [if_neg (mt passbackFails_iff.mpr h)]
    exact enters_of_entryEnd (fareUnit_entryPenalty side state h)

theorem fareUnit_entryOut (side : i.side = .a) (state : i.card.state ≠ journeyIn) :
    if 0 < i.table.transferWindow ∧ i.card.legs < i.table.maxLegs ∧ i.card.lastExit ≤ i.now ∧
        i.now - i.card.lastExit ≤ i.table.transferWindow then
      Enters i .entryTransfer 0 ⟨false, false, false, true⟩
    else Enters i .entryNew 0 ⟨false, false, false, false⟩ := by
  by_cases h : chainContinues i = true
  · rw [if_pos (chainContinues_iff.mp h)]
    exact enters_of_entryEnd (fareUnit_entryTransfer side state h)
  · rw [if_neg (mt chainContinues_iff.mpr h)]
    exact enters_of_entryEnd (fareUnit_entryNew side state h)

theorem fareUnit_exitOut (side : i.side = .b) (state : i.card.state ≠ journeyIn) :
    Leaves i .exitPenalty (farePenalty i) ⟨false, farePenaltyCapped i, true, false⟩ :=
  leaves_of_exitEnd (fareUnit_exitPenalty side state)

theorem fareUnit_exitIn (side : i.side = .b) (state : i.card.state = journeyIn)
    (hz : 1 ≤ i.table.zones) (hb : 1 ≤ i.table.bandCount) :
    Leaves i .exitFare (fareCharged i)
      ⟨decide (clampTo i.table.zones i.card.originZone ≠ i.card.originZone ∨
          clampTo i.table.zones i.zone ≠ i.zone ∨
          clampTo i.table.bandCount i.card.originBand ≠ i.card.originBand),
        capApplies (fareClass i).dailyCap (fareBase i) (fareCeiled i), false,
        decide (2 ≤ i.card.legs)⟩ := by
  rw [← fareClamped_eq hz hb]
  exact leaves_of_exitEnd (fareUnit_exitFare side state)

end

/-- Settles O59: the rounding and the bands, then the clauses of the Fare Unit by side and state, then the
record and the limits from what the Fare Unit accepts. -/
theorem fareIsRounded : Obligations.FareIsRounded := by
  refine ⟨?rounding, ?band, fun i => ⟨fareUnit_entryIn, fareUnit_entryOut, fareUnit_exitOut, ?exitIn,
    ?accepted⟩⟩
  case rounding =>
    exact fun product unit hu =>
      ⟨roundFare_of_above, fun h => roundFare_of_atMost (Nat.le_of_eq h),
        fun h => roundFare_of_atMost (Nat.le_of_lt h), unit_dvd_roundFare product unit, roundFare_le_max hu⟩
  case band =>
    intro bands m n b asc hb
    refine ⟨bandAt_of_started asc hb, ?_⟩
    rintro rfl hm
    exact bandAt_of_noneStarted
      (noneStarted_of_head asc fun c hc => by cases hb.symm.trans hc; exact hm)
  case exitIn =>
    intro side state hz hb
    have h := fareUnit_exitIn side state hz hb
    simp only [fareCharged, fareCeiled, fareProduct, baseFare, clampTo_eq] at h
    exact h
  case accepted =>
    intro a ha
    have h := accepted_of_fareUnit ha
    have hbalance := h.composeJourney_balance
    exact ⟨h.composeJourney_begun, h.composeJourney_transfer, h.composeJourney_exitFare,
      h.composeJourney_exitPenalty, fun _ => h.historyFields_eq, h.charge_le_maxFare,
      h.charge_le_room, hbalance, hbalance ▸ h.balanceAfter_le,
      fun side => hbalance ▸ h.balanceAfter_nonneg side,
      fun side => hbalance ▸ h.overdraft_le_balanceAfter side, h.chainPaid_le,
      composeJourney_dayAccumulated_le i a, h.legs_le⟩

end Sys2Proof.Machine

/-! ## Hotlist lookups (R111) -/

namespace Sys2Proof.Machine

/-! ### The view: delta, active bank, local list (R111) -/

section
variable {h : Hotlist} {u : Uid}

theorem deltaFor_present (hd : h.deltaCond = .present) :
    deltaFor h u = h.deltaOps.find? (fun o => o.uid = u) :=
  if_pos hd

/-- The delta gives no operation when it is not present, and when it has none for the UID. -/
theorem deltaFor_none (hd : h.deltaCond ≠ .present ∨ ∀ o ∈ h.deltaOps, o.uid ≠ u) :
    deltaFor h u = none := by
  by_cases hp : h.deltaCond = .present
  · rw [deltaFor_present hp]
    simpa using hd.resolve_left (not_not_intro hp)
  · exact if_neg hp

theorem mainAction_add {v : Uid} {action : HotAction} (hd : deltaFor h u = some (.add v action)) :
    mainAction h u = some action := by
  rw [mainAction, hd]

theorem mainAction_remove {v : Uid} (hd : deltaFor h u = some (.remove v)) :
    mainAction h u = none := by
  rw [mainAction, hd]

theorem mainAction_bank (hd : deltaFor h u = none) :
    mainAction h u = ((activeEntries h).find? (fun e => e.uid = u)).map HotEntry.action := by
  rw [mainAction, hd]

theorem mainAction_unlisted (hd : deltaFor h u = none) (he : ∀ e ∈ activeEntries h, e.uid ≠ u) :
    mainAction h u = none := by
  rw [mainAction_bank hd, Option.map_eq_none_iff]
  simpa using he

/-- What the main part lists is the answer; the local list is not asked. -/
theorem lookupAnswer_main {action : HotAction} (hm : mainAction h u = some action) :
    (lookupAnswer h u).action = some action := by
  simp only [lookupAnswer, hm]

/-- What the main part does not list is asked of the local list, whose action is REFUSE. -/
theorem lookupAnswer_local (hm : mainAction h u = none) :
    (lookupAnswer h u).action = if u ∈ h.localList then some .refuse else none := by
  simp only [lookupAnswer, hm, List.contains_iff_mem]

end

/-! ### The request at check 4 (R29, R184) -/

theorem check3_asksLookup {sd : Side} {s : State} (hst : blockStatus (tapBlock0 s sd) = 1)
    (hcl : blockClass (tapBlock0 s sd) ≤ 7) : check3 sd s = askStore sd .lookup s := by
  have hb : blockStatus (tapBlock0 s sd) ≠ statusBlocked := by rw [hst]; decide
  have ha : ¬ (blockStatus (tapBlock0 s sd) ≠ statusActive ∨ 7 < blockClass (tapBlock0 s sd)) :=
    not_or.mpr ⟨not_not_intro hst, Nat.not_lt.mpr hcl⟩
  unfold check3
  exact (if_neg hb).trans (if_neg ha)

theorem check2_passes {sd : Side} {s : State}
    (hc : blockCode (tapBlock0 s sd) = identityCode (tapCodeKey s sd) (tapUid s sd) (tapBlock0 s sd)) :
    check2 sd s = check3 sd s :=
  if_pos hc

theorem exec_channelEngineDone {sd : Side} {keyload : Bool} {s : State} {job : ChanJob}
    (hp : s.power = .running) (hj : s.engines.get sd = some job) :
    exec (.codeEngineDone (.channel sd) keyload) s = .next (settle (chanEngineDone sd job s)) := by
  have he : engineCompletes (.channel sd) keyload s = chanEngineDone sd job s := by
    simp only [engineCompletes, hj]
  show answered (live (engineCompletes (.channel sd) keyload) s) = _
  rw [live_running hp, he]
  rfl

/-! ### What check 4 leaves (R30, R36) -/

/-- What a refusal leaves of a lookup: the port, the Hotlist Store and the answer in the record. -/
def lookupItems (sd : Side) (s : State) : Arbiter × Hotlist × Option HotAnswer :=
  (s.arb, s.hot, (s.taps.get sd).record.hotlist)

theorem modTap_lookupItems (sd : Side) (f : Tap → Tap) (s : State) :
    lookupItems sd (modTap sd f s) = (s.arb, s.hot, (f (s.taps.get sd)).record.hotlist) := by
  unfold lookupItems
  rw [modTap_taps, Sided.get_set_same]
  rfl

theorem releaseReservations_lookupItems (sd : Side) (s : State) :
    lookupItems sd (releaseReservations sd s) = lookupItems sd s := by
  simp [lookupItems, releaseReservations_eq, reservationsBack]

theorem recordRefusal_lookupItems (sd : Side) (kind : JournalKind) (code : RefusalCode) (s : State) :
    lookupItems sd (recordRefusal sd kind code s) = lookupItems sd s := by
  unfold recordRefusal
  rw [offerRecord_offered]
  exact modTap_lookupItems sd (fun t => { t with record := { t.record with refusal := some code } }) s

theorem releaseContext_lookupItems (sd : Side) (s : State) :
    lookupItems sd (releaseContext sd s) = lookupItems sd s := by
  rw [releaseContext_eq, contextBack_frame]
  rfl

theorem refuseSequence_lookupItems (sd : Side) (kind : JournalKind) (code : RefusalCode) (s : State) :
    lookupItems sd (refuseSequence sd kind code s) = lookupItems sd s := by
  unfold refuseSequence
  rw [releaseContext_lookupItems, recordRefusal_lookupItems]
  exact releaseReservations_lookupItems sd s

theorem askHalt_lookupItems (sd : Side) (s : State) :
    lookupItems sd (askHalt sd s) = lookupItems sd s :=
  modTap_lookupItems sd _ (sendCommand sd .halt 1 s)

theorem setTapState_lookupItems (sd : Side) (st : TapState) (s : State) :
    lookupItems sd (setTapState sd st s) = lookupItems sd s :=
  modTap_lookupItems sd _ s

theorem refuse_lookupItems (sd : Side) (code : RefusalCode) (s : State) :
    lookupItems sd (refuse sd code s) = lookupItems sd s :=
  (askHalt_lookupItems sd _).trans (refuseSequence_lookupItems sd _ code s)

theorem blockAction_lookupItems (sd : Side) (s : State) :
    lookupItems sd (blockAction sd s) = lookupItems sd s :=
  (setTapState_lookupItems sd _ _).trans (refuseSequence_lookupItems sd _ _ s)

/-- Check 4 notes the answer and keeps the Hotlist Store; of the port it can only ask, for the read of
check 5. -/
theorem check4_lookupItems (sd : Side) (s : State) :
    ∃ a, lookupItems sd (check4 sd s) = (a, s.hot, some (lookupAnswer s.hot (tapUid s sd))) ∧
      (a = s.arb ∨ a = { s.arb with tap := s.arb.tap.set sd (some .check5) }) := by
  have noted : ∀ answer,
      lookupItems sd (modRecord sd (fun r => { r with hotlist := some answer }) s) =
        (s.arb, s.hot, some answer) :=
    fun _ => modTap_lookupItems sd _ s
  unfold check4
  dsimp only
  split
  case h_1 =>
    refine ⟨_, ?_, .inr rfl⟩
    exact congrArg (fun i => (_, i.2)) (noted _)
  case h_2 => exact ⟨s.arb, (refuse_lookupItems sd _ _).trans (noted _), .inl rfl⟩
  case h_3 => exact ⟨s.arb, (blockAction_lookupItems sd _).trans (noted _), .inl rfl⟩

/-! ### The grant of a Tap Controller (R174) -/

/-- A grant begun for a Tap Controller takes the request of its side; what the loader or the merge asked is
another grant. -/
theorem beginGrant_tap {a : Arbiter} {sd : Side} {ask : TapAsk} (hfree : a.inUse = none)
    (h : (beginGrant a).inUse = some (.tap sd ask)) : a.tap.get sd = some ask := by
  unfold beginGrant at h
  split at h
  case h_1 =>
    obtain ⟨x, hx, heq⟩ := Option.map_eq_some_iff.mp h
    cases heq
    exact hx
  case h_2 =>
    repeat' split at h
    all_goals simp [hfree] at h

theorem mergeResume_port (s : State) :
    (mergeResume s).arb.tap = s.arb.tap ∧ (mergeResume s).arb.inUse = s.arb.inUse := by
  unfold mergeResume
  split <;> exact ⟨rfl, rfl⟩

theorem mergeLook_port (s : State) :
    (mergeLook s).arb.tap = s.arb.tap ∧ (mergeLook s).arb.inUse = s.arb.inUse := by
  unfold mergeLook
  repeat' split
  all_goals exact ⟨rfl, rfl⟩

theorem ringOutTake_arb (s : State) : (ringOutTake s).arb = s.arb := by
  unfold ringOutTake takeOwn
  repeat' split
  all_goals rfl

/-- A grant of a Tap Controller that is in use after the arbiter was in use before, or its request
waited. -/
theorem arbitrate_tapGrant {s : State} {sd : Side} {ask : TapAsk}
    (h : (arbitrate s).arb.inUse = some (.tap sd ask)) :
    s.arb.inUse = some (.tap sd ask) ∨ s.arb.tap.get sd = some ask := by
  unfold arbitrate at h
  split at h
  · exact .inl ((mergeResume_port s).2 ▸ h)
  next hfree =>
    right
    rw [(mergeResume_port _).2, modArb_arb] at h
    obtain ⟨htap₁, huse₁⟩ := mergeResume_port (modHot takeAdditions s)
    obtain ⟨htap₂, huse₂⟩ := mergeLook_port (mergeResume (modHot takeAdditions s))
    have hnone : s.arb.inUse = none := by simpa using hfree
    have hwait := beginGrant_tap ((huse₂.trans huse₁).trans hnone) h
    rwa [htap₂, htap₁] at hwait

theorem settle_tapGrant {s : State} {sd : Side} {ask : TapAsk}
    (h : (settle s).arb.inUse = some (.tap sd ask)) :
    s.arb.inUse = some (.tap sd ask) ∨ s.arb.tap.get sd = some ask := by
  have harb : (settle s).arb = (arbitrate (enableChannel .b (enableChannel .a s))).arb :=
    ringOutTake_arb _
  rw [harb] at h
  have hgrant := arbitrate_tapGrant h
  rwa [enableChannel_arb, enableChannel_arb] at hgrant

/-! ### The lookup served (R111) -/

theorem exec_hotlistLookup {sd : Side} {s : State} (hp : s.power = .running)
    (hg : s.arb.inUse = some (.tap sd .lookup)) :
    exec (.hotlistLookup sd) s = .next (settle (check4 sd (endGrant s))) := by
  have hready : grantReady s = s := if_pos (by rw [hg]; rfl)
  have hserve : serveLookup sd s = check4 sd (endGrant s) := by
    unfold serveLookup
    rw [hready]
    exact if_pos hg
  show answered (live (serveLookup sd) s) = _
  rw [live_running hp, hserve]
  rfl

theorem additionsTaken_none {s : State} (hw : s.hot.waiting = []) : additionsTaken s = s.hot := by
  unfold additionsTaken
  split
  · rfl
  · exact takeAdditions_none hw

/-- The end of an event at which no addition waits changes the merge state of the Hotlist Store alone. -/
theorem settle_hot_of_noneWaiting {s : State} (hw : s.hot.waiting = []) :
    ∃ m, (settle s).hot = { s.hot with merge := m } := by
  obtain ⟨m, hm⟩ := settle_hot s
  exact ⟨m, by rw [hm, additionsTaken_none hw]⟩

/-- Settles O28: the answer by the place that lists the UID, then the request behind check 3, then what
check 4 and the end of its event leave. -/
theorem lookupReadsTheView : Obligations.LookupReadsTheView := by
  refine ⟨fun h u => ⟨rfl, ?add, ?remove, ?bank, ?unlisted⟩, ?asked, ?served⟩
  case add =>
    intro action hd ho
    exact lookupAnswer_main (mainAction_add ((deltaFor_present hd).trans ho))
  case remove =>
    intro hd ho
    exact lookupAnswer_local (mainAction_remove ((deltaFor_present hd).trans ho))
  case bank =>
    intro e hd he
    exact lookupAnswer_main ((mainAction_bank (deltaFor_none hd)).trans (congrArg _ he))
  case unlisted =>
    exact fun hd he => lookupAnswer_local (mainAction_unlisted (deltaFor_none hd) he)
  case asked =>
    intro sd keyload s hp hj _ hcode hstatus hclass
    have hchecks : chanEngineDone sd .identity s = askStore sd .lookup (setEngine sd none s) :=
      (check2_passes (s := setEngine sd none s) hcode).trans (check3_asksLookup hstatus hclass)
    rw [exec_channelEngineDone hp hj, hchecks]
    rfl
  case served =>
    intro sd s hp hg hwait _
    obtain ⟨a, hitems, ha⟩ := check4_lookupItems sd (endGrant s)
    simp only [lookupItems, Prod.mk.injEq] at hitems
    obtain ⟨harb, hhot, hanswer⟩ := hitems
    refine ⟨_, exec_hotlistLookup hp hg, ?grant, ?answer, ?store⟩
    case grant =>
      intro hagain
      have hport := settle_tapGrant hagain
      rw [harb] at hport
      obtain rfl | rfl := ha <;> simp [endGrant, hwait] at hport
    case answer => rw [settle_taps, hanswer]; rfl
    case store =>
      intro hw
      have hnone : (check4 sd (endGrant s)).hot.waiting = [] := by rw [hhot]; exact hw
      obtain ⟨m, hm⟩ := settle_hot_of_noneWaiting hnone
      exact ⟨m, by rw [hm, hhot]; rfl⟩

end Sys2Proof.Machine

/-! ## The machine as a whole -/

namespace Sys2Proof.Machine

/-! ### Every command as one event -/

/-- What the event of a command does before its end, for the commands that only a running part takes. -/
def eventOf : Instr → State → State
  | .pollTimerExpiry sd => pollExpires sd
  | .airAnswerArrival sd report => answerArrives sd report
  | .answerTimerExpiry sd => answerExpires sd
  | .fieldEmptyTimeout sd => fieldEmptied sd
  | .exchangeEnded sd => exchangeEnds sd
  | .hotlistLookup sd => serveLookup sd
  | .fareBankRead sd => serveBankRead sd
  | .codeEngineDone engine keyload => engineCompletes engine keyload
  | .claimHoldExpiry sd => holdExpires sd
  | .sightingArrival f => receiveSighting f
  | .cloneNoticeArrival f => receiveNotice f
  | .localHotlistAddition u => offerLocal u
  | .mergeStep => serveMerge
  | .loaderWrite => serveWrite
  | .loaderRead => serveRead
  | .enter sd => laneEnter sd
  | .passed sd => lanePassed sd
  | .clear => laneClear
  | .forced => laneForced
  | .occupiedLong => laneOccupied
  | .passTimerExpiry => passTimerEnds
  | .stopTimerExpiry sd => stopTimerEnds sd
  | .emergAsserted | .emergReleased => deriveGate
  | .beacon f => receiveBeacon f
  | .beaconWatchExpiry => watchExpires
  | .lineTimeAdvance => advanceLineTime
  | .frameStripped f => receiveOwn f
  | .frameDropped bytes => dropBytes bytes
  | .frameForwarded f => receivePassing f
  | .ringOutFrameEnd => frameEnds
  | .sentEntryAgeing => ageOldest
  | .answerQueueFullDrop f => dropRequest f
  | .describe f => arriveRequest .describe f
  | .status f => arriveRequest .status f
  | .counters f => arriveRequest .counters f
  | .countersClear f keyload => arriveProtected .countersClear f keyload
  | .setup f keyload => arriveProtected .setup f keyload
  | .gateFreeOn f keyload => arriveGate (fun a => decide (a = 1)) f keyload
  | .gateFreeOff f keyload => arriveGate (fun a => decide (a = 2)) f keyload
  | .gateAlarmRelease f keyload => arriveGate (fun a => decide (a = 3)) f keyload
  | .restart f keyload => arriveProtected .restart f keyload
  | .loadBegin f keyload => arriveProtected .loadBegin f keyload
  | .loadData f keyload => arriveProtected .loadData f keyload
  | .loadEnd f keyload => arriveProtected .loadEnd f keyload
  | .keyWrite f keyload => arriveProtected .keyWrite f keyload
  | .keyLock f keyload => arriveProtected .keyLock f keyload
  | .unknownRequest f => arriveUnknown f
  | .nonvolatileWriteDone => changeDone
  | .warmRestart => restartLeaves
  | .restartPeriodExpiry passing => periodExpires passing
  | .repeaterModeExit => leaveRepeater
  | .gateActionBadValue f keyload => arriveGate (fun a => !decide (1 ≤ a ∧ a ≤ 3)) f keyload
  | .rstAsserted | .coldStart _ _ | .powerLoss => id

/-- The level of the EMERG pin with which a command is taken: those of that pin set it, whether or not the
part runs (R139, R140). -/
def emergLevel : Instr → Bool → Bool
  | .emergAsserted, _ => true
  | .emergReleased, _ => false
  | _, level => level

/-- The state on which a command is taken. -/
def takenOn (c : Instr) (s : State) : State := { s with emerg := emergLevel c s.emerg }

/-- Every command but the three of reset and power is one event of a running part. -/
theorem exec_cases (c : Instr) (s : State) :
    exec c s = .next (live (eventOf c) (takenOn c s)) ∨
      exec c s = .next (holdReset s) ∨
      (∃ gateNo passing, c = .coldStart gateNo passing ∧
        exec c s = .next (settle (coldStart gateNo.toNat passing s))) ∨
      (c = .powerLoss ∧ exec c s = .next (losePower s)) := by
  cases c
  case rstAsserted => exact .inr (.inl rfl)
  case coldStart gateNo passing => exact .inr (.inr (.inl ⟨gateNo, passing, rfl, rfl⟩))
  case powerLoss => exact .inr (.inr (.inr ⟨rfl, rfl⟩))
  all_goals exact .inl rfl

/-- A step is the event of a waiting command, a millisecond of the local timer, or one of the three commands
of reset and power. -/
theorem step_cases {s t : State} (h : step s = .next t) :
    (s.pending = [] ∧ t = tick s) ∨
      ∃ c rest, s.pending = c :: rest ∧ exec c { s with pending := rest } = .next t := by
  unfold step at h
  cases hp : s.pending with
  | nil => rw [hp] at h; exact .inl ⟨rfl, (Host.Outcome.next.inj h).symm⟩
  | cons c rest => rw [hp] at h; exact .inr ⟨c, rest, rfl, h⟩

/-- Settles O1. -/
theorem stepTakesTheFrontCommand : Obligations.StepTakesTheFrontCommand := by
  intro c rest s hp
  unfold step
  rw [hp]

/-! ### Leaves and indicators -/

theorem live_shows (f : State → State) (s : State) (hp : (live f s).power = .running) :
    Shows (live f s) := by
  unfold live at hp ⊢
  split
  · exact settle_shows _
  · next h => rw [if_neg h] at hp; exact absurd hp h

/-- An expiry taken ends its event, and one not due leaves the state alone. -/
theorem fire_eq (due : State → Bool) (f : State → State) (s : State) :
    fire due f s = s ∨ fire due f s = settle (f s) := by
  unfold fire
  split
  · exact .inr rfl
  · exact .inl rfl

theorem fire_shows {due : State → Bool} {f : State → State} {s : State} (h : Shows s) :
    Shows (fire due f s) := by
  obtain he | he := fire_eq due f s <;> rw [he]
  · exact h
  · exact settle_shows _

/-- The gate state and the indicators read no remaining time of a timer. -/
theorem moveTimers_shows {s : State} (h : Shows s) : Shows (moveTimers s) := by
  have hg : gateState (moveTimers s) = gateState s := rfl
  have hi : ∀ sd, indicatorOf (moveTimers s) sd = indicatorOf s sd := by
    intro sd
    have hb : indicatorBelowStop (moveTimers s) sd = indicatorBelowStop s sd := rfl
    unfold indicatorOf
    rw [hg, hb]
    have hstop : (moveTimers s).gate.stopTimer.get sd = tickStop (s.gate.stopTimer.get sd) := by
      cases sd <;> rfl
    rw [hstop]
    cases s.gate.stopTimer.get sd <;> rfl
  exact ⟨h.cause, h.leaf, h.sideA.trans (hi .a).symm, h.sideB.trans (hi .b).symm⟩

theorem tick_shows {s : State} (h : s.power = .running → Shows s) (hp : (tick s).power = .running) :
    Shows (tick s) := by
  unfold tick at hp ⊢
  split
  · next hr =>
    unfold fireSide fireGate fireLine
    repeat apply fire_shows
    exact moveTimers_shows (h hr)
  · next hr => rw [if_neg hr] at hp; exact absurd hp hr

theorem exec_shows {c : Instr} {s t : State} (h : exec c s = .next t) (hp : t.power = .running) :
    Shows t := by
  obtain he | he | ⟨gateNo, passing, -, he⟩ | ⟨-, he⟩ := exec_cases c s <;>
    obtain rfl := Host.Outcome.next.inj (he.symm.trans h)
  · exact live_shows _ _ hp
  · exact absurd hp (by simp [holdReset])
  · exact settle_shows _
  · exact absurd hp (by simp [losePower])

/-- Settles O6, by the end of every event, which drives the outputs, and by the idle step, whose timers no
output reads. -/
theorem leavesAndIndicatorsFollowTheState : Obligations.LeavesAndIndicatorsFollowTheState := by
  intro s t hs h hp
  obtain ⟨-, rfl⟩ | ⟨c, rest, -, he⟩ := step_cases h
  · exact tick_shows hs hp
  · exact exec_shows he hp

theorem gateState_open {s : State} {dir : Side}
    (h : gateState s = .opened dir ∨ gateState s = .passing dir) :
    ∃ g rest, s.gate.queue = g :: rest ∧ dir = g.side := by
  unfold gateState at h
  split at h
  · simp at h
  split at h
  · simp at h
  split at h
  · simp at h
  split at h
  · next g rest hq =>
    refine ⟨g, rest, hq, ?_⟩
    split at h <;> simpa [eq_comm] using h
  · simp at h

/-- An open command is that of OPEN or PASSING. -/
theorem leafOf_openToward {st : GateState} {sd : Side} (h : leafOf st = .openToward sd) :
    ∃ dir, sd = dir.other ∧ (st = .opened dir ∨ st = .passing dir) := by
  cases st <;> simp only [leafOf, LeafCommand.openToward.injEq, reduceCtorEq] at h
  · exact ⟨_, h.symm, .inl rfl⟩
  · exact ⟨_, h.symm, .inr rfl⟩

/-- Settles O7, from the outputs that follow the state. -/
theorem leavesOpenOnlyForTheHeadGrant : Obligations.LeavesOpenOnlyForTheHeadGrant := by
  intro s t sd hs h hp _ hleaf
  have hshows := leavesAndIndicatorsFollowTheState s t hs h hp
  obtain ⟨dir, rfl, hdir⟩ := leafOf_openToward (hshows.leaf.symm.trans hleaf)
  obtain ⟨g, rest, hq, rfl⟩ := gateState_open hdir
  exact ⟨g, rest, hq, rfl⟩

/-! ### Capacities -/

theorem eventOf_capacities (c : Instr) {s : State} (h : Capacities s) : Capacities (eventOf c s) := by
  cases c with
  | pollTimerExpiry sd => exact pollExpires_capacities sd s h
  | airAnswerArrival sd report => exact answerArrives_capacities sd report s h
  | answerTimerExpiry sd => exact answerExpires_capacities sd s h
  | fieldEmptyTimeout sd => exact fieldEmptied_capacities sd s h
  | exchangeEnded sd => exact exchangeEnds_capacities sd s h
  | hotlistLookup sd => exact serveLookup_capacities sd s h
  | fareBankRead sd => exact serveBankRead_capacities sd s h
  | codeEngineDone engine keyload => exact engineCompletes_capacities engine keyload s h
  | claimHoldExpiry sd => exact holdExpires_capacities sd s h
  | sightingArrival f => exact receiveSighting_capacities f s h
  | cloneNoticeArrival f => exact receiveNotice_capacities f s h
  | localHotlistAddition u => exact offerLocal_capacities u s h
  | mergeStep => exact serveMerge_capacities s h
  | loaderWrite => exact serveWrite_capacities s h
  | loaderRead => exact serveRead_capacities s h
  | enter sd => exact laneEnter_capacities sd s h
  | passed sd => exact lanePassed_capacities sd s h
  | clear => exact laneClear_capacities s h
  | forced => exact laneForced_capacities s h
  | occupiedLong => exact laneOccupied_capacities s h
  | passTimerExpiry => exact passTimerEnds_capacities s h
  | stopTimerExpiry sd => exact stopTimerEnds_capacities sd s h
  | emergAsserted => exact deriveGate_capacities s h
  | emergReleased => exact deriveGate_capacities s h
  | beacon f => exact receiveBeacon_capacities f s h
  | beaconWatchExpiry => exact watchExpires_capacities s h
  | lineTimeAdvance => exact advanceLineTime_capacities s h
  | frameStripped f => exact receiveOwn_capacities f s h
  | frameDropped bytes => exact dropBytes_capacities bytes s h
  | frameForwarded f => exact receivePassing_capacities f s h
  | ringOutFrameEnd => exact frameEnds_capacities s h
  | sentEntryAgeing => exact ageOldest_capacities s h
  | answerQueueFullDrop f => exact dropRequest_capacities f s h
  | describe f => exact arriveRequest_capacities .describe f s h
  | status f => exact arriveRequest_capacities .status f s h
  | counters f => exact arriveRequest_capacities .counters f s h
  | countersClear f keyload => exact arriveProtected_capacities .countersClear f keyload s h
  | setup f keyload => exact arriveProtected_capacities .setup f keyload s h
  | gateFreeOn f keyload => exact arriveGate_capacities (fun a => decide (a = 1)) f keyload s h
  | gateFreeOff f keyload => exact arriveGate_capacities (fun a => decide (a = 2)) f keyload s h
  | gateAlarmRelease f keyload => exact arriveGate_capacities (fun a => decide (a = 3)) f keyload s h
  | restart f keyload => exact arriveProtected_capacities .restart f keyload s h
  | loadBegin f keyload => exact arriveProtected_capacities .loadBegin f keyload s h
  | loadData f keyload => exact arriveProtected_capacities .loadData f keyload s h
  | loadEnd f keyload => exact arriveProtected_capacities .loadEnd f keyload s h
  | keyWrite f keyload => exact arriveProtected_capacities .keyWrite f keyload s h
  | keyLock f keyload => exact arriveProtected_capacities .keyLock f keyload s h
  | unknownRequest f => exact arriveUnknown_capacities f s h
  | nonvolatileWriteDone => exact changeDone_capacities s h
  | warmRestart => exact restartLeaves_capacities s h
  | restartPeriodExpiry passing => exact periodExpires_capacities passing s h
  | repeaterModeExit => exact leaveRepeater_capacities s h
  | gateActionBadValue f keyload => exact arriveGate_capacities (fun a => !decide (1 ≤ a ∧ a ≤ 3)) f keyload s h
  | rstAsserted => exact h
  | coldStart _ _ => exact h
  | powerLoss => exact h

/-- The EMERG pin is no concern of the capacities. -/
theorem takenOn_capacities (c : Instr) {s : State} (h : Capacities s) : Capacities (takenOn c s) := by
  obtain ⟨_, _, _, _, _, _, _, _, _, _, _, _, _⟩ := h
  constructor <;> assumption

theorem exec_capacities {c : Instr} {s t : State} (h : exec c s = .next t) (hs : Capacities s) :
    Capacities t := by
  obtain he | he | ⟨gateNo, passing, -, he⟩ | ⟨-, he⟩ := exec_cases c s <;>
    obtain rfl := Host.Outcome.next.inj (he.symm.trans h)
  · exact live_capacities _ _ (takenOn_capacities c hs) (eventOf_capacities c)
  · exact holdReset_capacities s hs
  · exact settle_capacities _ (coldStart_capacities _ _ s hs)
  · exact losePower_capacities s hs

/-- Settles O8: each event keeps the capacities, and so does the idle step. -/
theorem capacitiesAreKept : Obligations.CapacitiesAreKept := by
  intro s t hs h
  obtain ⟨-, rfl⟩ | ⟨c, rest, -, he⟩ := step_cases h
  · exact tick_capacities s hs
  · refine exec_capacities he ?_
    obtain ⟨_, _, _, _, _, _, _, _, _, _, _, _, _⟩ := hs
    constructor <;> assumption

/-! ### The items that no event of a running part changes but those of clock and keys -/

/-- The queue of commands, the power, the EMERG pin, the clock and the key slots. -/
structure Kernel where
  pending : List Instr
  power : Power
  emerg : Bool
  clock : Clock
  keys : Vector KeySlot 8

/-- The kernel of a state. -/
def kernel (s : State) : Kernel :=
  { pending := s.pending, power := s.power, emerg := s.emerg, clock := s.clock, keys := s.keys }

/-- What keeps the standing items keeps the kernel, which is a part of them. -/
theorem kernel_of_standing {s t : State} (h : standing t = standing s) : kernel t = kernel s := by
  simp only [standing, Standing.mk.injEq] at h
  simp [kernel, h]

@[simp] theorem modHot_kernel (f : Hotlist → Hotlist) (s : State) :
    kernel (modHot f s) = kernel s := rfl
@[simp] theorem modStore_kernel (f : TableStore → TableStore) (s : State) :
    kernel (modStore f s) = kernel s := rfl
@[simp] theorem modArb_kernel (f : Arbiter → Arbiter) (s : State) :
    kernel (modArb f s) = kernel s := rfl
@[simp] theorem modGate_kernel (f : Gate → Gate) (s : State) :
    kernel (modGate f s) = kernel s := rfl
@[simp] theorem modRing_kernel (f : Ring → Ring) (s : State) :
    kernel (modRing f s) = kernel s := rfl
@[simp] theorem modDecoder_kernel (f : Decoder → Decoder) (s : State) :
    kernel (modDecoder f s) = kernel s := rfl
@[simp] theorem modJournal_kernel (f : Journal → Journal) (s : State) :
    kernel (modJournal f s) = kernel s := rfl
@[simp] theorem modCounters_kernel (f : Counters → Counters) (s : State) :
    kernel (modCounters f s) = kernel s := rfl
@[simp] theorem modBank_kernel (id : BankId) (f : Bank → Bank) (s : State) :
    kernel (modBank id f s) = kernel s := rfl
@[simp] theorem withKeyload_kernel (level : Bool) (s : State) :
    kernel { s with keyload := level } = kernel s := rfl
@[simp] theorem withRingEngine_kernel (job : Option RingJob) (s : State) :
    kernel { s with ringEngine := job } = kernel s := rfl
@[simp] theorem withLoader_kernel (l : Option Loading) (s : State) :
    kernel { s with loader := l } = kernel s := rfl
@[simp] theorem deriveGate_kernel (s : State) : kernel (deriveGate s) = kernel s :=
  kernel_of_standing (deriveGate_standing s)
@[simp] theorem releaseAlarm_kernel (s : State) : kernel (releaseAlarm s) = kernel s :=
  kernel_of_standing (releaseAlarm_standing s)
@[simp] theorem activateIfDue_kernel (s : State) : kernel (activateIfDue s) = kernel s :=
  kernel_of_standing (activateIfDue_standing s)
@[simp] theorem forwardIfAll_kernel (f : RingFrame) (s : State) :
    kernel (forwardIfAll f s) = kernel s := kernel_of_standing (forwardIfAll_standing f s)
@[simp] theorem endGrant_kernel (s : State) : kernel (endGrant s) = kernel s := rfl
@[simp] theorem grantReady_kernel (s : State) : kernel (grantReady s) = kernel s :=
  kernel_of_standing (grantReady_standing s)

/-! #### Management requests -/

@[simp] theorem fillAnswer_kernel (request : Byte) (code : AnswerCode) (data : List Byte) (s : State) :
    kernel (fillAnswer request code data s) = kernel s := rfl
@[simp] theorem finishRequest_kernel (next : DecoderState) (r : Request) (code : AnswerCode)
    (data : List Byte) (s : State) : kernel (finishRequest next r code data s) = kernel s := rfl
@[simp] theorem answerCode_kernel (r : Request) (code : AnswerCode) (s : State) :
    kernel (answerCode r code s) = kernel s := rfl
@[simp] theorem answerData_kernel (r : Request) (data : List Byte) (s : State) :
    kernel (answerData r data s) = kernel s := rfl
@[simp] theorem takeInHand_kernel (h : InHand) (s : State) : kernel (takeInHand h s) = kernel s := rfl
@[simp] theorem askLoader_kernel (a : LoaderAsk) (s : State) : kernel (askLoader a s) = kernel s := rfl
@[simp] theorem askRead_kernel (l : Loading) (p : LoadPhase) (s : State) :
    kernel (askRead l p s) = kernel s := rfl
@[simp] theorem setPhase_kernel (l : Loading) (p : LoadPhase) (s : State) :
    kernel (setPhase l p s) = kernel s := rfl
@[simp] theorem loadDone_kernel (s : State) : kernel (loadDone s) = kernel s := rfl
@[simp] theorem beginLoad_kernel (kind : LoadKind) (bank : BankId) (length : Nat) (s : State) :
    kernel (beginLoad kind bank length s) = kernel s := rfl
@[simp] theorem askChange_kernel (h : InHand) (slot : Nat) (after : KeySlot) (s : State) :
    kernel (askChange h slot after s) = kernel s := rfl

@[simp] theorem discardLoad_kernel (l : Loading) (s : State) :
    kernel (discardLoad l s) = kernel s := by
  unfold discardLoad
  split <;> rfl

@[simp] theorem breakOff_kernel (s : State) : kernel (breakOff s) = kernel s := by
  unfold breakOff
  split
  · rfl
  · rw [discardLoad_kernel]; rfl

@[simp] theorem failLoad_kernel (code : AnswerCode) (s : State) :
    kernel (failLoad code s) = kernel s := by simp [failLoad]

@[simp] theorem ownSetup_kernel (params : List Byte) (s : State) :
    kernel (ownSetup params s) = kernel s := by
  unfold ownSetup
  split <;> simp

@[simp] theorem ownGate_kernel (params : List Byte) (s : State) :
    kernel (ownGate params s) = kernel s := by
  unfold ownGate
  split <;> simp [freeOn, freeOff]

@[simp] theorem ownCountersClear_kernel (s : State) : kernel (ownCountersClear s) = kernel s := rfl

@[simp] theorem ownKeyWrite_kernel (h : InHand) (s : State) :
    kernel (ownKeyWrite h s) = kernel s := by
  unfold ownKeyWrite
  dsimp only
  repeat' split
  all_goals rfl

@[simp] theorem ownKeyLock_kernel (h : InHand) (s : State) :
    kernel (ownKeyLock h s) = kernel s := by
  unfold ownKeyLock
  dsimp only
  repeat' split
  all_goals rfl

@[simp] theorem beginAt_kernel (kind : LoadKind) (length : Nat) (s : State) :
    kernel (beginAt kind length s) = kernel s := by
  unfold beginAt
  dsimp only
  repeat' split
  all_goals rfl

@[simp] theorem ownLoadBegin_kernel (params : List Byte) (s : State) :
    kernel (ownLoadBegin params s) = kernel s := by
  unfold ownLoadBegin
  dsimp only
  repeat' split
  all_goals simp

@[simp] theorem ownLoadData_kernel (h : InHand) (s : State) :
    kernel (ownLoadData h s) = kernel s := by
  unfold ownLoadData
  dsimp only
  repeat' split
  all_goals simp

@[simp] theorem ownLoadEnd_kernel (h : InHand) (s : State) :
    kernel (ownLoadEnd h s) = kernel s := by
  unfold ownLoadEnd
  dsimp only
  repeat' split
  all_goals simp

@[simp] theorem ownRequest_kernel (h : InHand) (s : State) : kernel (ownRequest h s) = kernel s := by
  unfold ownRequest
  split <;> simp

@[simp] theorem strapCheck_kernel (h : InHand) (s : State) : kernel (strapCheck h s) = kernel s := by
  unfold strapCheck
  split <;> simp

@[simp] theorem protect_kernel (h : InHand) (s : State) : kernel (protect h s) = kernel s := by
  unfold protect
  repeat' split
  all_goals simp

@[simp] theorem judgeRequest_kernel (r : Request) (f : RingFrame) (s : State) :
    kernel (judgeRequest r f s) = kernel s := by
  unfold judgeRequest
  dsimp only
  repeat' split
  all_goals simp

/-- The receipt of a request leaves the kernel where its judgement does. -/
theorem receiveRequest_kernel (f : RingFrame) {judge : State → State}
    (hj : ∀ s, kernel (judge s) = kernel s) (s : State) :
    kernel (receiveRequest f judge s) = kernel s := by
  unfold receiveRequest handRequest holdPlace
  dsimp only
  repeat' split
  all_goals simp [hj]

@[simp] theorem arriveRequest_kernel (r : Request) (f : RingFrame) (s : State) :
    kernel (arriveRequest r f s) = kernel s := by
  unfold arriveRequest
  split
  · exact receiveRequest_kernel f (judgeRequest_kernel r f) s
  · rfl

@[simp] theorem arriveProtected_kernel (r : Request) (f : RingFrame) (keyload : Bool) (s : State) :
    kernel (arriveProtected r f keyload s) = kernel s := by simp [arriveProtected]

@[simp] theorem arriveGate_kernel (admits : Nat → Bool) (f : RingFrame) (keyload : Bool) (s : State) :
    kernel (arriveGate admits f keyload s) = kernel s := by
  unfold arriveGate
  split <;> simp

@[simp] theorem arriveUnknown_kernel (f : RingFrame) (s : State) :
    kernel (arriveUnknown f s) = kernel s := by
  unfold arriveUnknown
  split
  · exact receiveRequest_kernel f (judge := judgeUnknown f) (fun _ => rfl) s
  · rfl

@[simp] theorem verifyLine_kernel (key : Key) (s : State) :
    kernel (verifyLine key s) = kernel s := by
  unfold verifyLine
  repeat' split
  all_goals simp

@[simp] theorem verifyTable_kernel (key : Key) (read : List Byte) (s : State) :
    kernel (verifyTable key read s) = kernel s := by
  unfold verifyTable
  repeat' split
  all_goals simp

@[simp] theorem ringEngineDone_kernel (job : RingJob) (s : State) :
    kernel (ringEngineDone job s) = kernel s := by
  unfold ringEngineDone
  dsimp only
  repeat' split
  all_goals simp

@[simp] theorem engineCompletes_kernel (engine : EngineId) (keyload : Bool) (s : State) :
    kernel (engineCompletes engine keyload s) = kernel s := by
  unfold engineCompletes
  repeat' split
  · exact kernel_of_standing (chanEngineDone_standing _ _ s)
  all_goals simp

/-! #### The memory port -/

@[simp] theorem feedTableCode_kernel (piece : List Byte) (s : State) :
    kernel (feedTableCode piece s) = kernel s := by
  unfold feedTableCode
  split <;> rfl

@[simp] theorem acceptFare_kernel (l : Loading) (s : State) :
    kernel (acceptFare l s) = kernel s := by
  unfold acceptFare
  dsimp only
  split <;> simp

@[simp] theorem acceptFull_kernel (s : State) : kernel (acceptFull s) = kernel s := by
  unfold acceptFull
  split <;> simp

@[simp] theorem acceptDelta_kernel (ops : List DeltaOp) (s : State) :
    kernel (acceptDelta ops s) = kernel s := by
  unfold acceptDelta
  split <;> simp

@[simp] theorem judgeDelta_kernel (l : Loading) (s : State) :
    kernel (judgeDelta l s) = kernel s := by
  unfold judgeDelta
  repeat' split
  all_goals simp

@[simp] theorem judgeContents_kernel (l : Loading) (s : State) :
    kernel (judgeContents l s) = kernel s := by
  unfold judgeContents
  split <;> simp

@[simp] theorem loaderReads_kernel (l : Loading) (s : State) :
    kernel (loaderReads l s) = kernel s := by
  unfold loaderReads
  dsimp only
  repeat' split
  all_goals simp

@[simp] theorem writeImage_kernel (l : Loading) (data : List Byte) (s : State) :
    kernel (writeImage l data s) = kernel s := by
  unfold writeImage
  split <;> rfl

@[simp] theorem loaderWrites_kernel (data : List Byte) (s : State) :
    kernel (loaderWrites data s) = kernel s := by
  unfold loaderWrites
  split <;> simp

@[simp] theorem serveWrite_kernel (s : State) : kernel (serveWrite s) = kernel s := by
  unfold serveWrite
  dsimp only
  split <;> simp

@[simp] theorem serveRead_kernel (s : State) : kernel (serveRead s) = kernel s := by
  unfold serveRead
  dsimp only
  split <;> simp

@[simp] theorem serveMerge_kernel (s : State) : kernel (serveMerge s) = kernel s := by
  unfold serveMerge
  dsimp only
  split <;> simp

@[simp] theorem serveLookup_kernel (sd : Side) (s : State) : kernel (serveLookup sd s) = kernel s := by
  unfold serveLookup
  dsimp only
  split
  · rw [kernel_of_standing (check4_standing sd _)]; simp
  · rfl

@[simp] theorem serveBankRead_kernel (sd : Side) (s : State) :
    kernel (serveBankRead sd s) = kernel s := by
  unfold serveBankRead
  dsimp only
  repeat' split
  · rw [kernel_of_standing (bankCheck_standing sd _ _)]; simp
  all_goals rfl

/-! #### The ring -/

@[simp] theorem receiveSighting_kernel (f : RingFrame) (s : State) :
    kernel (receiveSighting f s) = kernel s := by
  unfold receiveSighting
  dsimp only
  repeat' split
  · rw [kernel_of_standing (arriveSighting_standing _ _)]; simp
  all_goals simp

@[simp] theorem receiveNotice_kernel (f : RingFrame) (s : State) :
    kernel (receiveNotice f s) = kernel s := by
  unfold receiveNotice
  dsimp only
  repeat' split
  · rw [kernel_of_standing (arriveNotice_standing _ _)]; simp
  all_goals simp

@[simp] theorem receiveOwn_kernel (f : RingFrame) (s : State) :
    kernel (receiveOwn f s) = kernel s := by
  unfold receiveOwn
  split
  · exact kernel_of_standing (stripFrame_standing f s)
  · rfl

@[simp] theorem forwardFrame_kernel (f : RingFrame) (s : State) :
    kernel (forwardFrame f s) = kernel s := kernel_of_standing (forwardFrame_standing f s)

@[simp] theorem receivePassing_kernel (f : RingFrame) (s : State) :
    kernel (receivePassing f s) = kernel s := by
  unfold receivePassing
  split <;> simp

@[simp] theorem dropRequest_kernel (f : RingFrame) (s : State) :
    kernel (dropRequest f s) = kernel s := by
  unfold dropRequest
  split <;> simp

@[simp] theorem watchExpires_kernel (s : State) : kernel (watchExpires s) = kernel s := by
  unfold watchExpires
  split <;> rfl

@[simp] theorem periodExpires_kernel (passing : Bool) (s : State) :
    kernel (periodExpires passing s) = kernel s := by
  unfold periodExpires
  split <;> rfl

@[simp] theorem leaveRepeater_kernel (s : State) : kernel (leaveRepeater s) = kernel s := by
  unfold leaveRepeater
  split <;> rfl

@[simp] theorem passTimerEnds_kernel (s : State) : kernel (passTimerEnds s) = kernel s := by
  unfold passTimerEnds
  split
  · exact kernel_of_standing (passExpiry_standing s)
  · rfl

/-! ### Key slots (R178) -/

/-- The LOCKED slots of a state stand in another. -/
def LockedKept (s t : State) : Prop :=
  ∀ n e, slotAt s n = .locked e → slotAt t n = .locked e

theorem lockedKept_of_keys {s t : State} (h : t.keys = s.keys) : LockedKept s t := by
  intro n e hn
  unfold slotAt at hn ⊢
  rw [h, hn]

theorem LockedKept.trans {s t u : State} (h : LockedKept s t) (h' : LockedKept t u) :
    LockedKept s u := fun n e hn => h' n e (h n e hn)

/-- What a write leaves in each slot: a LOCKED slot is not written, and no other slot is (R178). -/
theorem slotAt_writeSlot (n m : Nat) (k : KeySlot) (s : State) :
    slotAt (writeSlot n k s) m = slotAt s m ∨
      (m = n ∧ (∀ e, slotAt s n ≠ .locked e) ∧ slotAt (writeSlot n k s) m = k) := by
  unfold writeSlot
  split
  · exact .inl rfl
  · next h =>
    unfold slotAt
    by_cases hm : m = n
    · subst hm
      by_cases hlt : m < 8
      · exact .inr ⟨rfl, h, by simp [List.getD_eq_getElem?_getD, hlt]⟩
      · exact .inl (by simp [List.getD_eq_getElem?_getD, hlt])
    · exact .inl (by simp [List.getD_eq_getElem?_getD, Ne.symm hm])

theorem writeSlot_lockedKept (n : Nat) (k : KeySlot) {s₀ s : State} (hk : s.keys = s₀.keys) :
    LockedKept s₀ (writeSlot n k s) := by
  intro m e hm
  replace hm := lockedKept_of_keys hk m e hm
  obtain h | ⟨rfl, h, -⟩ := slotAt_writeSlot n m k s
  · rw [h, hm]
  · exact absurd hm (h e)

theorem resolveChange_lockedKept (s : State) : LockedKept s (resolveChange s) := by
  unfold resolveChange
  dsimp only
  split
  · exact lockedKept_of_keys rfl
  split
  · exact writeSlot_lockedKept _ _ rfl
  · exact lockedKept_of_keys rfl

theorem changeDone_lockedKept (s : State) : LockedKept s (changeDone s) := by
  unfold changeDone
  dsimp only
  split
  · exact (writeSlot_lockedKept (s := modDecoder (fun d => { d with change := none }) s) _ _ rfl).trans
      (lockedKept_of_keys rfl)
  · exact lockedKept_of_keys rfl

theorem writeSlot_clock (n : Nat) (k : KeySlot) (s : State) :
    (writeSlot n k s).pending = s.pending ∧ (writeSlot n k s).power = s.power ∧
      (writeSlot n k s).clock = s.clock := by
  unfold writeSlot
  split <;> exact ⟨rfl, rfl, rfl⟩

theorem resolveChange_clock (s : State) :
    (resolveChange s).pending = s.pending ∧ (resolveChange s).power = s.power ∧
      (resolveChange s).clock = s.clock := by
  unfold resolveChange
  dsimp only
  split
  · exact ⟨rfl, rfl, rfl⟩
  split
  · obtain ⟨hp, hw, hc⟩ := writeSlot_clock _ _ _
    exact ⟨hp, hw, hc⟩
  · exact ⟨rfl, rfl, rfl⟩

/-! ### What every event keeps -/

/-- Line time has not gone back, and a clock that was set is set (R160, R161). -/
structure ClockAdvances (c d : Clock) : Prop where
  forward : c.lineTime ≤ d.lineTime
  good : ClockGood d
  set : c.isSet = true → d.isSet = true

/-- An event of a running part leaves the queue of commands and the LOCKED key slots, and lets line time go
forward only. -/
structure Kept (s t : State) : Prop where
  pending : t.pending = s.pending
  locked : LockedKept s t
  clock : ClockGood s.clock → ClockAdvances s.clock t.clock

theorem kept_of_clock {s t : State} (hp : t.pending = s.pending) (hl : LockedKept s t)
    (hc : t.clock = s.clock) : Kept s t :=
  ⟨hp, hl, fun h => by rw [hc]; exact ⟨Nat.le_refl _, h, id⟩⟩

theorem kept_of_kernel {s t : State} (h : kernel t = kernel s) : Kept s t := by
  simp only [kernel, Kernel.mk.injEq] at h
  obtain ⟨hp, -, -, hc, hk⟩ := h
  exact kept_of_clock hp (lockedKept_of_keys hk) hc

theorem kept_of_standing {s t : State} (h : standing t = standing s) : Kept s t :=
  kept_of_kernel (kernel_of_standing h)

theorem Kept.trans {s t u : State} (h : Kept s t) (h' : Kept t u) : Kept s u :=
  ⟨h'.pending.trans h.pending, h.locked.trans h'.locked, fun hs =>
    have ht := h.clock hs
    have hu := h'.clock ht.good
    ⟨Nat.le_trans ht.forward hu.forward, hu.good, hu.set ∘ ht.set⟩⟩

theorem advanceLineTime_kept (s : State) : Kept s (advanceLineTime s) := by
  unfold advanceLineTime
  split
  · refine Kept.trans (t := modClock _ s) ?_ (kept_of_standing (lineTimeMoved_standing _))
    refine ⟨rfl, lockedKept_of_keys rfl, fun hg => ⟨?_, ⟨Nat.min_le_right _ _, ?_⟩, id⟩⟩
    · exact Nat.le_min.mpr ⟨Nat.le_succ _, hg.range⟩
    · intro hu
      simp_all
  · exact kept_of_standing rfl

/-- Induction along a list from its front, one element joining at the tail. -/
theorem list_append_induction {α : Type} {motive : List α → Prop} (nil : motive [])
    (append_singleton : ∀ l a, motive l → motive (l ++ [a])) (l : List α) : motive l := by
  rw [← l.reverse_reverse]
  induction l.reverse with
  | nil => exact nil
  | cons a r ih =>
    rw [List.reverse_cons]
    exact append_singleton _ _ ih

/-- The line time that a BEACON carries is one of its 4 bytes. -/
theorem beNat_lt (bytes : List Byte) : beNat bytes < 256 ^ bytes.length := by
  induction bytes using list_append_induction with
  | nil => decide
  | append_singleton init b ih =>
    have hb : b.toNat < 256 := b.isLt
    simp only [beNat, List.foldl_append, List.foldl_cons, List.foldl_nil, List.length_append,
      List.length_singleton, Nat.pow_succ] at ih ⊢
    omega

theorem parseBeacon_range {f : RingFrame} {t : Nat} (h : parseBeacon f = some t) :
    t ≤ maxLineTime := by
  unfold parseBeacon at h
  split at h
  · next hl =>
    have ht := beNat_lt f.payload
    rw [hl] at ht
    cases h
    unfold maxLineTime
    omega
  · cases h

theorem clockBeacon_kept {t : Nat} (ht : t ≤ maxLineTime) (s : State) : Kept s (clockBeacon t s) := by
  unfold clockBeacon
  split
  · exact ⟨rfl, lockedKept_of_keys rfl, fun hg => ⟨Nat.le_refl _, ⟨hg.range, hg.unset⟩, id⟩⟩
  · next h =>
    refine Kept.trans (t := modClock _ s) ?_ (kept_of_standing (lineTimeMoved_standing _))
    refine ⟨rfl, lockedKept_of_keys rfl, fun hg => ⟨?_, ⟨ht, by simp⟩, fun _ => rfl⟩⟩
    show s.clock.lineTime ≤ t
    cases hset : s.clock.isSet with
    | false => rw [hg.unset hset]; exact Nat.zero_le t
    | true => simpa [hset] using h

theorem receiveBeacon_kept (f : RingFrame) (s : State) : Kept s (receiveBeacon f s) := by
  unfold receiveBeacon
  dsimp only
  split
  · refine (kept_of_kernel (forwardFrame_kernel f s)).trans ?_
    split
    · next t ht =>
      exact Kept.trans (t := modRing _ _) (kept_of_kernel (modRing_kernel _ _))
        (clockBeacon_kept (parseBeacon_range ht) _)
    · exact kept_of_standing rfl
  · exact kept_of_standing rfl

/-! #### Warm restart -/

@[simp] theorem abandonTap_standing (sd : Side) (s : State) :
    standing (abandonTap sd s) = standing s := by simp [abandonTap]

@[simp] theorem restartTransaction_standing (sd : Side) (s : State) :
    standing (restartTransaction sd s) = standing s := by
  unfold restartTransaction
  repeat' split
  all_goals simp

@[simp] theorem restartTap_standing (sd : Side) (s : State) :
    standing (restartTap sd s) = standing s := by simp [restartTap]

@[simp] theorem restartGate_standing (s : State) : standing (restartGate s) = standing s := by
  simp [restartGate]

@[simp] theorem restartStore_kernel (s : State) : kernel (restartStore s) = kernel s := by
  show kernel (breakOff s) = kernel s
  simp

@[simp] theorem restartJournal_kernel (s : State) : kernel (restartJournal s) = kernel s := rfl

theorem resolveChange_kept (s : State) : Kept s (resolveChange s) := by
  obtain ⟨hp, -, hc⟩ := resolveChange_clock s
  exact kept_of_clock hp (resolveChange_lockedKept s) hc

theorem restartDecoder_kept (s : State) : Kept s (restartDecoder s) :=
  (resolveChange_kept s).trans (kept_of_kernel rfl)

theorem warmRestart_kept (s : State) : Kept s (warmRestart s) := by
  have hblocks : Kept s (restartStore (restartJournal (restartGate (restartTap .b (restartTap .a s))))) :=
    kept_of_kernel (by
      rw [restartStore_kernel, restartJournal_kernel]
      exact kernel_of_standing (by simp))
  exact hblocks.trans ((restartDecoder_kept _).trans (kept_of_kernel rfl))

theorem frameEnds_kept (s : State) : Kept s (frameEnds s) := by
  unfold frameEnds
  split
  · exact kept_of_standing rfl
  · next x _ =>
    have hleaves : Kept s (frameLeaves x s) := kept_of_standing (frameLeaves_standing x s)
    split
    · exact hleaves.trans (warmRestart_kept _)
    · exact hleaves

theorem restartLeaves_kept (s : State) : Kept s (restartLeaves s) := by
  unfold restartLeaves
  split
  · exact frameEnds_kept s
  · exact kept_of_standing rfl

theorem changeDone_kept (s : State) : Kept s (changeDone s) := by
  have same : (changeDone s).pending = s.pending ∧ (changeDone s).clock = s.clock := by
    unfold changeDone
    dsimp only
    split
    · obtain ⟨hp, -, hc⟩ := writeSlot_clock _ _ _
      exact ⟨hp, hc⟩
    · exact ⟨rfl, rfl⟩
  obtain ⟨hp, hc⟩ := same
  exact kept_of_clock hp (changeDone_lockedKept s) hc

/-! #### Every command -/

theorem eventOf_kept (c : Instr) (s : State) : Kept s (eventOf c s) := by
  cases c with
  | pollTimerExpiry sd => exact kept_of_standing (pollExpires_standing sd s)
  | airAnswerArrival sd report => exact kept_of_standing (answerArrives_standing sd report s)
  | answerTimerExpiry sd => exact kept_of_standing (answerExpires_standing sd s)
  | fieldEmptyTimeout sd => exact kept_of_standing (fieldEmptied_standing sd s)
  | exchangeEnded sd => exact kept_of_standing (exchangeEnds_standing sd s)
  | hotlistLookup sd => exact kept_of_kernel (serveLookup_kernel sd s)
  | fareBankRead sd => exact kept_of_kernel (serveBankRead_kernel sd s)
  | codeEngineDone engine keyload => exact kept_of_kernel (engineCompletes_kernel engine keyload s)
  | claimHoldExpiry sd => exact kept_of_standing (holdExpires_standing sd s)
  | sightingArrival f => exact kept_of_kernel (receiveSighting_kernel f s)
  | cloneNoticeArrival f => exact kept_of_kernel (receiveNotice_kernel f s)
  | localHotlistAddition u => exact kept_of_standing (offerLocal_standing u s)
  | mergeStep => exact kept_of_kernel (serveMerge_kernel s)
  | loaderWrite => exact kept_of_kernel (serveWrite_kernel s)
  | loaderRead => exact kept_of_kernel (serveRead_kernel s)
  | enter sd => exact kept_of_standing (laneEnter_standing sd s)
  | passed sd => exact kept_of_standing (lanePassed_standing sd s)
  | clear => exact kept_of_standing (laneClear_standing s)
  | forced => exact kept_of_standing (laneForced_standing s)
  | occupiedLong => exact kept_of_standing (laneOccupied_standing s)
  | passTimerExpiry => exact kept_of_kernel (passTimerEnds_kernel s)
  | stopTimerExpiry sd => exact kept_of_standing rfl
  | emergAsserted => exact kept_of_standing (deriveGate_standing s)
  | emergReleased => exact kept_of_standing (deriveGate_standing s)
  | beacon f => exact receiveBeacon_kept f s
  | beaconWatchExpiry => exact kept_of_kernel (watchExpires_kernel s)
  | lineTimeAdvance => exact advanceLineTime_kept s
  | frameStripped f => exact kept_of_kernel (receiveOwn_kernel f s)
  | frameDropped bytes => exact kept_of_standing rfl
  | frameForwarded f => exact kept_of_kernel (receivePassing_kernel f s)
  | ringOutFrameEnd => exact frameEnds_kept s
  | sentEntryAgeing => exact kept_of_standing (ageOldest_standing s)
  | answerQueueFullDrop f => exact kept_of_kernel (dropRequest_kernel f s)
  | describe f => exact kept_of_kernel (arriveRequest_kernel .describe f s)
  | status f => exact kept_of_kernel (arriveRequest_kernel .status f s)
  | counters f => exact kept_of_kernel (arriveRequest_kernel .counters f s)
  | countersClear f keyload => exact kept_of_kernel (arriveProtected_kernel .countersClear f keyload s)
  | setup f keyload => exact kept_of_kernel (arriveProtected_kernel .setup f keyload s)
  | gateFreeOn f keyload => exact kept_of_kernel (arriveGate_kernel (fun a => decide (a = 1)) f keyload s)
  | gateFreeOff f keyload => exact kept_of_kernel (arriveGate_kernel (fun a => decide (a = 2)) f keyload s)
  | gateAlarmRelease f keyload => exact kept_of_kernel (arriveGate_kernel (fun a => decide (a = 3)) f keyload s)
  | restart f keyload => exact kept_of_kernel (arriveProtected_kernel .restart f keyload s)
  | loadBegin f keyload => exact kept_of_kernel (arriveProtected_kernel .loadBegin f keyload s)
  | loadData f keyload => exact kept_of_kernel (arriveProtected_kernel .loadData f keyload s)
  | loadEnd f keyload => exact kept_of_kernel (arriveProtected_kernel .loadEnd f keyload s)
  | keyWrite f keyload => exact kept_of_kernel (arriveProtected_kernel .keyWrite f keyload s)
  | keyLock f keyload => exact kept_of_kernel (arriveProtected_kernel .keyLock f keyload s)
  | unknownRequest f => exact kept_of_kernel (arriveUnknown_kernel f s)
  | nonvolatileWriteDone => exact changeDone_kept s
  | warmRestart => exact restartLeaves_kept s
  | restartPeriodExpiry passing => exact kept_of_kernel (periodExpires_kernel passing s)
  | repeaterModeExit => exact kept_of_kernel (leaveRepeater_kernel s)
  | gateActionBadValue f keyload => exact kept_of_kernel (arriveGate_kernel (fun a => !decide (1 ≤ a ∧ a ≤ 3)) f keyload s)
  | rstAsserted => exact kept_of_standing rfl
  | coldStart _ _ => exact kept_of_standing rfl
  | powerLoss => exact kept_of_standing rfl

theorem live_kept (f : State → State) (s : State) (hf : Kept s (f s)) : Kept s (live f s) := by
  unfold live
  split
  · exact hf.trans (kept_of_standing (settle_standing _))
  · exact kept_of_standing rfl

theorem holdReset_kept (s : State) : Kept s (holdReset s) :=
  (resolveChange_kept s).trans ⟨rfl, lockedKept_of_keys rfl, fun h => ⟨Nat.le_refl _, h, id⟩⟩

/-- A cold start and a loss of power keep the queue of commands and the LOCKED slots. -/
theorem coldState_lockedKept (s : State) :
    (coldState (resolveChange s)).pending = s.pending ∧ LockedKept s (coldState (resolveChange s)) :=
  ⟨(resolveChange_clock s).1, (resolveChange_lockedKept s).trans (lockedKept_of_keys rfl)⟩

/-- Every command keeps the queue of commands and the LOCKED slots, and all but two of them let line time go
forward only. -/
theorem exec_keeps {c : Instr} {s t : State} (h : exec c s = .next t) :
    Kept s t ∨
      (((∃ gateNo passing, c = .coldStart gateNo passing) ∨ c = .powerLoss) ∧
        t.pending = s.pending ∧ LockedKept s t) := by
  obtain he | he | ⟨gateNo, passing, rfl, he⟩ | ⟨rfl, he⟩ := exec_cases c s <;>
    obtain rfl := Host.Outcome.next.inj (he.symm.trans h)
  · have hemerg : Kept s (takenOn c s) := kept_of_clock rfl (lockedKept_of_keys rfl) rfl
    exact .inl (hemerg.trans (live_kept _ _ (eventOf_kept c _)))
  · exact .inl (holdReset_kept s)
  · have hsettle := kept_of_standing (settle_standing (coldStart gateNo.toNat passing s))
    obtain ⟨hp, hl⟩ := coldState_lockedKept s
    exact .inr ⟨.inl ⟨_, _, rfl⟩, hsettle.pending.trans hp,
      (hl.trans (lockedKept_of_keys rfl)).trans hsettle.locked⟩
  · obtain ⟨hp, hl⟩ := coldState_lockedKept s
    exact .inr ⟨.inr rfl, hp, hl.trans (lockedKept_of_keys rfl)⟩

/-- Settles O3. -/
theorem everyCommandCompletes : Obligations.EveryCommandCompletes := by
  intro c s
  have hnext : ∃ t, exec c s = .next t := by
    obtain he | he | ⟨_, _, -, he⟩ | ⟨-, he⟩ := exec_cases c s <;> exact ⟨_, he⟩
  obtain ⟨t, ht⟩ := hnext
  obtain hk | ⟨-, hp, -⟩ := exec_keeps ht
  · exact ⟨t, ht, hk.pending⟩
  · exact ⟨t, ht, hp⟩

/-! ### The idle step -/

theorem moveTimers_kept (s : State) : Kept s (moveTimers s) :=
  ⟨rfl, lockedKept_of_keys rfl, fun h => ⟨Nat.le_refl _, ⟨h.range, h.unset⟩, id⟩⟩

theorem fire_kept {due : State → Bool} {f : State → State} (hf : ∀ s, Kept s (f s)) {s t : State}
    (h : Kept s t) : Kept s (fire due f t) := by
  obtain he | he := fire_eq due f t <;> rw [he]
  · exact h
  · exact h.trans ((hf t).trans (kept_of_standing (settle_standing _)))

theorem ageAll_kept (s : State) : Kept s (ageAll s) := kept_of_kernel (modRing_kernel _ s)

theorem tick_kept (s : State) : Kept s (tick s) := by
  have hside : ∀ {s t : State} (sd : Side), Kept s t → Kept s (fireSide sd t) := fun sd h =>
    fire_kept (fun s => kept_of_standing (pollExpires_standing sd s))
      (fire_kept (fun s => kept_of_standing (fieldEmptied_standing sd s))
        (fire_kept (fun s => kept_of_standing (holdExpires_standing sd s))
          (fire_kept (fun s => kept_of_standing (answerExpires_standing sd s)) h)))
  have hgate : ∀ {s t : State}, Kept s t → Kept s (fireGate t) := fun h =>
    fire_kept (fun s => kept_of_kernel (passTimerEnds_kernel s))
      (fire_kept (fun s => kept_of_standing (modGate_standing _ s))
        (fire_kept (fun s => kept_of_standing (modGate_standing _ s)) h))
  have hline : ∀ {s t : State}, Kept s t → Kept s (fireLine t) := fun h =>
    fire_kept ageAll_kept
      (fire_kept advanceLineTime_kept
        (fire_kept (fun s => kept_of_kernel (watchExpires_kernel s))
          (fire_kept (fun s => kept_of_kernel (periodExpires_kernel false s)) h)))
  unfold tick
  split
  · exact hside .b (hside .a (hgate (hline (moveTimers_kept s))))
  · exact kept_of_standing rfl

/-- Settles O9: a LOCKED slot is not written by `writeSlot`, and no other operation writes a slot. -/
theorem lockedKeySlotsNeverChange : Obligations.LockedKeySlotsNeverChange := by
  intro s t n e h hn
  obtain ⟨-, rfl⟩ | ⟨c, rest, -, he⟩ := step_cases h
  · exact (tick_kept s).locked n e hn
  · have hrest : LockedKept s { s with pending := rest } := lockedKept_of_keys rfl
    obtain hk | ⟨-, -, hl⟩ := exec_keeps he
    · exact (hrest.trans hk.locked) n e hn
    · exact (hrest.trans hl) n e hn

/-- Settles O10: BEACON holds rather than goes back (R160), and an advance stays at the largest value
(R161). -/
theorem lineTimeNeverDecreases : Obligations.LineTimeNeverDecreases := by
  intro s t hg h hcold hloss
  have hadvances : ClockAdvances s.clock t.clock := by
    obtain ⟨-, rfl⟩ | ⟨c, rest, hp, he⟩ := step_cases h
    · exact (tick_kept s).clock hg
    · obtain hk | ⟨⟨gateNo, passing, rfl⟩ | rfl, -, -⟩ := exec_keeps he
      · exact hk.clock hg
      · exact absurd hp (hcold gateNo passing rest)
      · exact absurd hp (hloss rest)
  exact ⟨hadvances.forward, hadvances.good, hadvances.set⟩

/-- Settles O11. -/
theorem invariantsHoldAtReset : Obligations.InvariantsHoldAtReset := by
  refine ⟨⟨rfl, rfl, rfl, rfl⟩, ?_, ⟨Nat.zero_le _, fun _ => rfl⟩, rfl, rfl⟩
  constructor <;> simp [State.reset]

end Sys2Proof.Machine

/-! ## The end of every event -/

namespace Sys2Proof.Machine

/-! ### The memory port at the end of an event (R117, R174) -/

/-- The store arbiter with the state of the Merge Engine. -/
def port (s : State) : Arbiter × MergeState := (s.arb, s.hot.merge)

/-- The return of the Merge Engine from SUSPENDED, at the port (R117). -/
def resumed (p : Arbiter × MergeState) : Arbiter × MergeState :=
  if p.2 = .suspended ∧ tapWaits p.1 = false then ({ p.1 with merge := true }, .merging) else p

/-- The look of the Merge Engine at an entry boundary, at the port (R117). -/
def looked (p : Arbiter × MergeState) : Arbiter × MergeState :=
  if p.2 = .merging then
    if tapWaits p.1 then ({ p.1 with merge := false }, .suspended) else ({ p.1 with merge := true }, p.2)
  else p

/-- The port after the end of an event (R117, R174). -/
def portAfter (p : Arbiter × MergeState) : Arbiter × MergeState :=
  if p.1.inUse.isSome then resumed p
  else resumed (beginGrant (looked (resumed p)).1, (looked (resumed p)).2)

theorem mergeResume_portPair (s : State) : port (mergeResume s) = resumed (port s) := by
  unfold mergeResume resumed port
  split <;> rfl

theorem mergeLook_portPair (s : State) : port (mergeLook s) = looked (port s) := by
  unfold mergeLook looked port
  repeat' split
  all_goals rfl

theorem addLocal_merge (u : Uid) (h : Hotlist) : (addLocal u h).merge = h.merge := by
  unfold addLocal
  repeat' split
  all_goals rfl

theorem takeAdditions_merge (h : Hotlist) : (takeAdditions h).merge = h.merge := by
  have key : ∀ (us : List Uid) (g : Hotlist),
      (us.foldl (fun h u => addLocal u h) g).merge = g.merge := by
    intro us
    induction us with
    | nil => exact fun _ => rfl
    | cons u rest ih => exact fun g => (ih _).trans (addLocal_merge u g)
  exact key h.waiting _

theorem arbitrate_port (s : State) : port (arbitrate s) = portAfter (port s) := by
  have htaken : port (modHot takeAdditions s) = port s :=
    congrArg (Prod.mk s.arb) (takeAdditions_merge s.hot)
  unfold arbitrate portAfter
  split
  · next h => rw [mergeResume_portPair]; exact (if_pos h).symm
  · next h =>
    have hlooked : port (mergeLook (mergeResume (modHot takeAdditions s))) =
        looked (resumed (port s)) := by
      rw [mergeLook_portPair, mergeResume_portPair, htaken]
    rw [mergeResume_portPair, if_neg (show ¬ (port s).1.inUse.isSome = true from h), ← hlooked]
    rfl

theorem settle_port (s : State) : port (settle s) = portAfter (port s) := by
  have hchans : port (enableChannel .b (enableChannel .a s)) = port s := by
    unfold port
    rw [enableChannel_arb, enableChannel_arb, enableChannel_hot, enableChannel_hot]
  have hring : port (settle s) = port (arbitrate (enableChannel .b (enableChannel .a s))) := by
    show ((ringOutTake _).arb, (ringOutTake _).hot.merge) = _
    rw [ringOutTake_arb, ringOutTake_hot]
    rfl
  rw [hring, arbitrate_port, hchans]

theorem settle_arb (s : State) : (settle s).arb = (portAfter (s.arb, s.hot.merge)).1 :=
  congrArg Prod.fst (settle_port s)

theorem settle_merge (s : State) : (settle s).hot.merge = (portAfter (s.arb, s.hot.merge)).2 :=
  congrArg Prod.snd (settle_port s)

theorem tapWaits_eq_false {a : Arbiter} : tapWaits a = false ↔ a.tap = ⟨none, none⟩ := by
  obtain ⟨⟨x, y⟩, _, _, _, _⟩ := a
  cases x <;> cases y <;> simp [tapWaits]

/-- While a grant is in use none is given, and the Merge Engine resumes alone. -/
theorem portAfter_inUse {a : Arbiter} {m : MergeState} (h : a.inUse.isSome) :
    portAfter (a, m) =
      if m = .suspended ∧ a.tap = ⟨none, none⟩ then ({ a with merge := true }, .merging) else (a, m) := by
  unfold portAfter resumed
  rw [if_pos h]
  simp only [tapWaits_eq_false]

/-- The Tap Controller that is granted: the one that waits alone, or the one that the mark names. -/
theorem tapPick_of {a : Arbiter} {sd : Side} {ask : TapAsk} (h : a.tap.get sd = some ask)
    (hm : a.tap.get sd.other = none ∨ a.mark = sd) : tapPick a = some sd := by
  obtain ⟨⟨x, y⟩, _, _, _, mark⟩ := a
  cases sd <;> cases x <;> cases y <;> simp_all [tapPick, Sided.get, Side.other]

theorem tapWaits_of {a : Arbiter} {sd : Side} {ask : TapAsk} (h : a.tap.get sd = some ask) :
    tapWaits a = true := by
  cases sd <;> simp_all [tapWaits, Sided.get]

/-- The arbiter after a Tap Controller of a side has been granted. -/
def tapGranted (sd : Side) (ask : TapAsk) (a : Arbiter) : Arbiter :=
  { a with inUse := some (.tap sd ask), tap := a.tap.set sd none, mark := sd.other }

theorem tapWaits_tapGranted (sd : Side) (ask : TapAsk) (a : Arbiter) :
    tapWaits (tapGranted sd ask a) = (a.tap.get sd.other).isSome := by
  cases sd <;> simp [tapWaits, tapGranted, Sided.set, Sided.get, Side.other]

/-- At a free port a Tap Controller that waits is granted, and the Merge Engine goes on or suspends by
whether the other waits. -/
theorem portAfter_tap {a : Arbiter} {m : MergeState} {sd : Side} {ask : TapAsk}
    (hu : a.inUse = none) (h : a.tap.get sd = some ask)
    (hm : a.tap.get sd.other = none ∨ a.mark = sd) :
    portAfter (a, m) =
      (if m ≠ .idle ∧ a.tap.get sd.other = none then
        ({ tapGranted sd ask a with merge := true }, .merging)
      else if m = .merging then ({ tapGranted sd ask a with merge := false }, .suspended)
      else (tapGranted sd ask a, m)) := by
  have hw := tapWaits_of h
  have hbegin : ∀ b, beginGrant { a with merge := b } = tapGranted sd ask { a with merge := b } := by
    intro b
    unfold beginGrant
    rw [tapPick_of (a := { a with merge := b }) h hm]
    simp [tapGranted, h]
  have hwaits : ∀ b, tapWaits (tapGranted sd ask { a with merge := b }) = (a.tap.get sd.other).isSome :=
    fun b => tapWaits_tapGranted sd ask { a with merge := b }
  have hself : beginGrant a = tapGranted sd ask a := hbegin a.merge
  have hselfWaits := hwaits a.merge
  cases m <;> cases hother : a.tap.get sd.other <;>
    simp_all [portAfter, resumed, looked, tapGranted]

/-- At a free port with no Tap Controller waiting the loader is granted, and else the merge that asks. -/
theorem portAfter_noTap {a : Arbiter} {m : MergeState} (hu : a.inUse = none)
    (h : a.tap = ⟨none, none⟩) :
    portAfter (a, m) =
      ((match a.loader with
        | some ask =>
          { a with
            inUse := some (.loader ask), loader := none, merge := a.merge || decide (m ≠ .idle) }
        | none =>
          if a.merge || decide (m ≠ .idle) then { a with inUse := some .merge, merge := false } else a),
        if m = .idle then .idle else .merging) := by
  have hw := tapWaits_eq_false.mpr h
  obtain ⟨tap, loader, merge, inUse, mark⟩ := a
  cases h
  cases hu
  cases m <;> cases loader <;> cases merge <;> rfl

/-! ### Gate and ring at the end of an event -/

theorem enableChannel_gate (sd : Side) (s : State) : (enableChannel sd s).gate = s.gate := by
  unfold enableChannel
  repeat' split
  all_goals rfl

theorem enableChannel_ring (sd : Side) (s : State) : (enableChannel sd s).ring = s.ring := by
  unfold enableChannel
  repeat' split
  all_goals rfl

theorem mergeResume_gate_ring (s : State) :
    (mergeResume s).gate = s.gate ∧ (mergeResume s).ring = s.ring := by
  unfold mergeResume
  split <;> exact ⟨rfl, rfl⟩

theorem mergeLook_gate_ring (s : State) :
    (mergeLook s).gate = s.gate ∧ (mergeLook s).ring = s.ring := by
  unfold mergeLook
  repeat' split
  all_goals exact ⟨rfl, rfl⟩

theorem arbitrate_gate_ring (s : State) :
    (arbitrate s).gate = s.gate ∧ (arbitrate s).ring = s.ring := by
  unfold arbitrate
  split
  · exact mergeResume_gate_ring s
  · obtain ⟨hg₁, hr₁⟩ := mergeResume_gate_ring (modHot takeAdditions s)
    obtain ⟨hg₂, hr₂⟩ := mergeLook_gate_ring (mergeResume (modHot takeAdditions s))
    obtain ⟨hg₃, hr₃⟩ :=
      mergeResume_gate_ring (modArb beginGrant (mergeLook (mergeResume (modHot takeAdditions s))))
    exact ⟨hg₃.trans (hg₂.trans hg₁), hr₃.trans (hr₂.trans hr₁)⟩

theorem ringOutTake_gate (s : State) : (ringOutTake s).gate = s.gate := by
  unfold ringOutTake takeOwn
  repeat' split
  all_goals rfl

theorem beforeRingOut_ring (s : State) :
    (arbitrate (enableChannel .b (enableChannel .a s))).ring = s.ring := by
  rw [(arbitrate_gate_ring _).2, enableChannel_ring, enableChannel_ring]

/-- What the driving of leaves and indicators makes of the Gate Controller. -/
theorem driven_gate (x : State) :
    (driveIndicators (driveLeaves x)).gate =
      { x.gate with
        leaf := leafOf (gateState x)
        leafGiven := x.gate.leafGiven ++ leafChange x.gate.leafCause (leafCause x)
        leafCause := leafCause x
        indicator := (driveIndicators (driveLeaves x)).gate.indicator } := rfl

theorem driven_ring (x : State) : (driveIndicators (driveLeaves x)).ring = x.ring := rfl

/-- The Gate Controller after the end of an event: the leaves and indicators driven, the rest alone (R142,
R143). -/
theorem settle_gate (s : State) :
    (settle s).gate =
      { s.gate with
        leaf := leafOf (gateState s)
        leafGiven := s.gate.leafGiven ++ leafChange s.gate.leafCause ⟨gateState s, s.gate.alarm⟩
        leafCause := ⟨gateState s, s.gate.alarm⟩
        indicator := (settle s).gate.indicator } := by
  have hgate : (ringOutTake (arbitrate (enableChannel .b (enableChannel .a s)))).gate = s.gate := by
    rw [ringOutTake_gate, (arbitrate_gate_ring _).1, enableChannel_gate, enableChannel_gate]
  have hcause := (settle_shows s).cause
  rw [settle_gateState, settle_alarm] at hcause
  have hdriven := driven_gate (ringOutTake (arbitrate (enableChannel .b (enableChannel .a s))))
  rw [hgate] at hdriven
  have hleaf : gateState (ringOutTake (arbitrate (enableChannel .b (enableChannel .a s)))) =
      gateState s := congrArg LeafCause.state hcause
  rw [← hcause, ← hleaf]
  exact hdriven

/-- The Ring Interface after the ring-out arbiter: a frame has left its source, or nothing has (R154). -/
theorem ringOutTake_ring (s : State) :
    ∃ forward insertion filled sending,
      (ringOutTake s).ring =
        { s.ring with
          forward := forward, insertion := insertion, filled := filled, sending := sending } := by
  unfold ringOutTake takeOwn
  repeat' split
  all_goals exact ⟨_, _, _, _, rfl⟩

theorem settle_ring (s : State) :
    (settle s).ring = (ringOutTake (arbitrate (enableChannel .b (enableChannel .a s)))).ring :=
  driven_ring _

theorem settle_ring_busy {s : State} (h : s.ring.sending.isSome ∨ s.ring.repeater = true) :
    (settle s).ring = s.ring := by
  have hring := beforeRingOut_ring s
  rw [settle_ring]
  unfold ringOutTake
  rw [if_pos (by rw [hring]; simpa using h), hring]

/-- An addition judged by R113. -/
theorem addLocal_localList (u : Uid) (h : Hotlist) :
    (addLocal u h).localList =
      if u ∈ h.localList ∨ (∃ e ∈ activeEntries h, e.uid = u) ∨ 256 ≤ h.localList.length then
        h.localList
      else h.localList ++ [u] := by
  unfold addLocal
  simp only [List.contains_iff_mem, listed, List.any_eq_true, decide_eq_true_eq]
  split
  · next hl => rw [if_pos (.inl hl)]
  split
  · next he => rw [if_pos (.inr (.inl he))]
  split
  · next hl he hlt => rw [if_neg (by simp [hl, he, hlt])]
  · next hl he hlt => rw [if_pos (.inr (.inr (Nat.not_lt.mp hlt)))]

/-- One addition that waits is judged by R113. -/
theorem takeAdditions_one {h : Hotlist} {u : Uid} (hw : h.waiting = [u]) :
    (takeAdditions h).localList =
      if u ∈ h.localList ∨ (∃ e ∈ activeEntries h, e.uid = u) ∨ 256 ≤ h.localList.length then
        h.localList
      else h.localList ++ [u] := by
  unfold takeAdditions
  rw [hw]
  exact addLocal_localList u { h with waiting := [] }

/-- Settles O5. -/
theorem channelsFollowTheEnabledCondition : Obligations.ChannelsFollowTheEnabledCondition := by
  intro s sd
  rw [settle_chan]
  unfold channelEnabled
  cases (s.chans.get sd).state <;> cases sideEnabled s sd <;> rfl

/-- Settles O4: the kept items, then gate, ring, port and channels at the end of an event. -/
theorem eventEndFrame : Obligations.EventEndFrame := by
  intro s
  obtain ⟨merge, hhot⟩ := settle_hot s
  have hgiven := settle_gate s
  refine ⟨settle_standing s, settle_taps s, settle_engines s, settle_contexts s, settle_sightings s,
    settle_store s, settle_journal s, settle_draws s, ?noneTaken, ?additions, ?noneWaits, ?oneWaits,
    ⟨_, _, hgiven, ?turn, ?change⟩, ?leaf, ?ring, settle_ring_busy, ?idle, ?inUse, ?tap, ?noTap,
    ?engaged⟩
  case noneTaken =>
    intro h
    refine ⟨merge, ?_⟩
    rw [hhot]
    unfold additionsTaken
    split
    · rfl
    · rw [takeAdditions_none (h.resolve_left ‹_›)]
  case additions =>
    have hkept := takeAdditions_kept s.hot
    refine ⟨merge, (additionsTaken s).localList, (additionsTaken s).localFull,
      (additionsTaken s).waiting, ?_⟩
    rw [hhot]
    unfold additionsTaken
    split
    · rfl
    · simp only [Hotlist.mk.injEq] at hkept ⊢
      simp [hkept]
  case noneWaits =>
    intro h
    rw [hhot]
    unfold additionsTaken
    rw [if_neg (by simp [h])]
    exact takeAdditions_waiting s.hot
  case oneWaits =>
    intro u h hw
    rw [hhot]
    unfold additionsTaken
    rw [if_neg (by simp [h])]
    exact takeAdditions_one hw
  case turn => exact fun x y hx hy => leafChange_turn hx hy
  case change => exact fun h => leafChange_change fun x y hxy => h x y hxy.1 hxy.2
  case leaf =>
    rw [hgiven]
    show leafOf (gateState s) = _
    cases gateState s <;> rfl
  case ring =>
    rw [settle_ring, ← beforeRingOut_ring s]
    exact ringOutTake_ring _
  case idle =>
    intro h
    rw [settle_merge]
    unfold portAfter resumed looked
    rw [h]
    simp only [reduceCtorEq, false_and, if_false]
    split <;> rfl
  case inUse =>
    intro hu
    rw [settle_merge, settle_arb, portAfter_inUse hu]
    exact ⟨fun hm ht => by simp [hm, ht],
      fun h => by rw [if_neg (fun hc => h.elim (· hc.1) (· hc.2))]; exact ⟨rfl, rfl⟩⟩
  case tap =>
    intro sd ask hu hask hpick
    rw [settle_merge, settle_arb, portAfter_tap hu hask hpick]
    refine ⟨?_, ?_, ?_⟩
    · repeat' split
      all_goals exact ⟨_, rfl⟩
    · intro hm ho
      rw [if_pos ⟨hm, ho⟩]
      exact ⟨rfl, rfl⟩
    · intro ho
      rw [if_neg (by rintro ⟨-, hn⟩; simp [hn] at ho)]
      refine ⟨fun hm => ?_, fun hm => ?_⟩
      · rw [if_pos hm]
        exact ⟨rfl, rfl⟩
      · rw [if_neg hm]
        exact ⟨rfl, rfl⟩
  case noTap =>
    intro hu ht
    rw [settle_merge, settle_arb, portAfter_noTap hu ht]
    refine ⟨rfl, fun ask hl => ?_, fun hl => ?_⟩
    · rw [hl]
    · simp [hl]
  case engaged =>
    intro sd h
    rw [settle_chan]
    unfold channelEnabled
    rw [h]

end Sys2Proof.Machine

/-! ## The idle step -/

namespace Sys2Proof.Machine

/-- One expiry of the idle step: when it is due, what it does, and the commands that it stands for. -/
structure Expiry where
  due : State → Bool
  event : State → State
  commands : State → List Instr

/-- An expiry that stands for one command. -/
def Expiry.of (c : Instr) (due : State → Bool) : Expiry :=
  { due := due, event := eventOf c, commands := fun s => if due s then [c] else [] }

/-- The ageing of the sent list, which stands for one command for each entry that is old (R148). -/
def Expiry.ageing : Expiry :=
  { due := ageingDue
    event := ageAll
    commands := fun s =>
      let aged := s.ring.sent.filter (fun e => decide (e.sentAt + 1000 ≤ s.clock.localMs))
      if aged.head? = s.ring.sent.head? then aged.map (fun _ => .sentEntryAgeing) else [] }

/-- The expiries of one side. -/
def sideExpiries (sd : Side) : List Expiry :=
  [.of (.answerTimerExpiry sd) (fun s => ranOut (s.chans.get sd).answerTimer),
    .of (.claimHoldExpiry sd) (fun s => ranOut (s.taps.get sd).hold),
    .of (.fieldEmptyTimeout sd) (fun s => decide (300 ≤ (s.chans.get sd).fieldEmpty.getD 0)),
    .of (.pollTimerExpiry sd) (fun s => ranOut (s.chans.get sd).pollTimer)]

/-- The expiries of ring, line time and gate. -/
def lineExpiries : List Expiry :=
  [.of (.restartPeriodExpiry false) (fun s => ranOut s.ring.restartPeriod),
    .of .beaconWatchExpiry (fun s => ranOut s.ring.watch),
    .of .lineTimeAdvance (fun s => decide (1000 ≤ s.clock.phase)),
    .ageing,
    .of (.stopTimerExpiry .a) (stopDue .a),
    .of (.stopTimerExpiry .b) (stopDue .b),
    .of .passTimerExpiry passDue]

/-- The expiries of the idle step, in the order of assumption log 2. -/
def expiries : List Expiry := lineExpiries ++ sideExpiries .a ++ sideExpiries .b

/-- The expiries of a list taken one after the other. -/
def takeExpiries (l : List Expiry) (s : State) : State :=
  l.foldl (fun s e => fire e.due e.event s) s

theorem tick_running {s : State} (hp : s.power = .running) :
    tick s = takeExpiries expiries (moveTimers s) := if_pos hp

theorem dueExpiries_eq (s : State) : dueExpiries s = expiries.flatMap (fun e => e.commands s) := by
  simp [dueExpiries, expiries, lineExpiries, sideExpiries, Expiry.of, Expiry.ageing, ranOut, stopDue,
    passDue]

/-- What an expiry does is what its commands do. -/
structure Expiry.Sound (e : Expiry) : Prop where
  idle : ∀ s, e.commands s = [] → e.due s = false
  taken : ∀ s c t, s.power = .running → e.commands s = [c] → exec c s = .next t →
    e.due s = true ∧ settle (e.event s) = t

theorem Expiry.of_sound {c : Instr} {due : State → Bool}
    (h : ∀ s, exec c s = .next (live (eventOf c) s)) : (Expiry.of c due).Sound := by
  constructor
  · intro s hc
    simpa [Expiry.of] using hc
  · intro s c' t hp hc he
    simp only [Expiry.of] at hc ⊢
    split at hc
    · next hd =>
      cases hc
      rw [h, live_running hp] at he
      exact ⟨hd, Host.Outcome.next.inj he⟩
    · cases hc

/-- Where the head alone passes a test, what does not pass it is the tail. -/
theorem filter_not_of_head {α : Type} {p : α → Bool} {a : α} {l : List α} (h : l.filter p = [a])
    (hh : l.head? = some a) : l.filter (fun x => !p x) = l.drop 1 := by
  cases l with
  | nil => cases hh
  | cons b rest =>
    cases hh
    have ha : p a = true := (List.mem_filter.mp (h ▸ List.mem_singleton_self a)).2
    rw [List.filter_cons_of_pos ha] at h
    have hrest : ∀ x ∈ rest, p x = false := by simpa using h
    simpa [ha] using hrest

/-- An old entry at the head is due. -/
theorem ageing_sound : Expiry.ageing.Sound := by
  constructor
  · intro s hc
    show ageingDue s = false
    unfold ageingDue
    split
    · next e rest hs =>
      refine eq_false_of_ne_true fun hd => ?_
      simp [Expiry.ageing, hs] at hc hd
      obtain ⟨hlt, -⟩ := by simpa [hd] using hc
      omega
    · rfl
  · intro s c t hp hc he
    simp only [Expiry.ageing] at hc
    split at hc
    · next hhead =>
      obtain ⟨e, haged, rfl⟩ : ∃ e, s.ring.sent.filter
          (fun e => decide (e.sentAt + 1000 ≤ s.clock.localMs)) = [e] ∧ c = .sentEntryAgeing := by
        obtain ⟨e, he, hl⟩ := List.map_eq_singleton_iff.mp hc
        exact ⟨e, he, hl.symm⟩
      rw [haged] at hhead
      have hdrop := filter_not_of_head haged hhead.symm
      refine ⟨?_, ?_⟩
      · show ageingDue s = true
        have hold : e.sentAt + 1000 ≤ s.clock.localMs := by
          have hmem := haged ▸ List.mem_singleton_self e
          simpa using (List.mem_filter.mp hmem).2
        unfold ageingDue
        cases hs : s.ring.sent with
        | nil => rw [hs] at hhead; cases hhead
        | cons x rest => rw [hs] at hhead; cases hhead; exact decide_eq_true hold
      · rw [← Host.Outcome.next.inj he]
        show _ = live ageOldest s
        rw [live_running hp]
        congr 1
        show ageAll s = ageOldest s
        unfold ageAll ageOldest modRing
        simp only [← hdrop]
        have hyoung : ∀ x : SentEntry, decide (s.clock.localMs < x.sentAt + 1000) =
            !decide (x.sentAt + 1000 ≤ s.clock.localMs) := fun x => by
          rw [← decide_not]
          exact decide_eq_decide.mpr Nat.not_le.symm
        simp only [hyoung]
    · cases hc

theorem expiries_sound : ∀ e ∈ expiries, e.Sound := by
  intro e he
  simp only [expiries, lineExpiries, sideExpiries, List.mem_append, List.mem_cons, List.not_mem_nil,
    or_false] at he
  rcases he with (((rfl | rfl | rfl | rfl | rfl | rfl | rfl) | rfl | rfl | rfl | rfl) | rfl | rfl | rfl | rfl)
  case inl.inl.inr.inr.inr.inl => exact ageing_sound
  all_goals exact Expiry.of_sound fun _ => rfl

theorem takeExpiries_none {l : List Expiry} (hl : ∀ e ∈ l, e.Sound) {s : State}
    (h : l.flatMap (fun e => e.commands s) = []) : takeExpiries l s = s := by
  induction l with
  | nil => rfl
  | cons e rest ih =>
    rw [List.flatMap_cons, List.append_eq_nil_iff] at h
    obtain ⟨he, hrest⟩ := h
    have hidle : fire e.due e.event s = s := by
      unfold fire
      rw [(hl e List.mem_cons_self).idle s he]
      rfl
    show takeExpiries rest (fire e.due e.event s) = s
    rw [hidle]
    exact ih (fun x hx => hl x (List.mem_cons_of_mem e hx)) hrest

theorem takeExpiries_one {l : List Expiry} (hl : ∀ e ∈ l, e.Sound) {s t : State} {c : Instr}
    (hp : s.power = .running) (h : l.flatMap (fun e => e.commands s) = [c])
    (he : exec c s = .next t) (ht : l.flatMap (fun e => e.commands t) = []) :
    takeExpiries l s = t := by
  induction l with
  | nil => cases h
  | cons e rest ih =>
    have hrestSound : ∀ x ∈ rest, x.Sound := fun x hx => hl x (List.mem_cons_of_mem e hx)
    rw [List.flatMap_cons] at h ht
    obtain ⟨-, hrestIdle⟩ := List.append_eq_nil_iff.mp ht
    show takeExpiries rest (fire e.due e.event s) = t
    unfold fire
    obtain ⟨hnone, hone⟩ | ⟨hone, hnone⟩ := List.append_eq_singleton_iff.mp h
    · rw [(hl e List.mem_cons_self).idle s hnone]
      exact ih hrestSound hone hrestIdle
    · obtain ⟨hdue, hevent⟩ := (hl e List.mem_cons_self).taken s c t hp hone he
      rw [if_pos hdue, hevent]
      exact takeExpiries_none hrestSound hrestIdle

/-! ### What the idle step leaves alone -/

/-- The items that no expiry changes. -/
structure TimerKept (s t : State) : Prop where
  pending : t.pending = s.pending
  emerg : t.emerg = s.emerg
  localMs : t.clock.localMs = s.clock.localMs
  decoder : t.decoder = s.decoder
  loader : t.loader = s.loader
  keys : t.keys = s.keys
  setup : t.store.setup = s.store.setup

theorem TimerKept.trans {s t u : State} (h : TimerKept s t) (h' : TimerKept t u) : TimerKept s u :=
  ⟨h'.pending.trans h.pending, h'.emerg.trans h.emerg, h'.localMs.trans h.localMs,
    h'.decoder.trans h.decoder, h'.loader.trans h.loader, h'.keys.trans h.keys, h'.setup.trans h.setup⟩

theorem timerKept_of_standing {s t : State} (h : standing t = standing s) : TimerKept s t := by
  simp only [standing, Standing.mk.injEq] at h
  constructor <;> simp [h]

theorem advanceLineTime_timerKept (s : State) : TimerKept s (advanceLineTime s) := by
  unfold advanceLineTime
  split
  · exact TimerKept.trans (t := modClock _ s) ⟨rfl, rfl, rfl, rfl, rfl, rfl, rfl⟩
      (timerKept_of_standing (lineTimeMoved_standing _))
  · exact timerKept_of_standing rfl

theorem watchExpires_timerKept (s : State) : TimerKept s (watchExpires s) := by
  unfold watchExpires
  split <;> exact ⟨rfl, rfl, rfl, rfl, rfl, rfl, rfl⟩

theorem periodExpires_timerKept (passing : Bool) (s : State) :
    TimerKept s (periodExpires passing s) := by
  unfold periodExpires
  split <;> exact ⟨rfl, rfl, rfl, rfl, rfl, rfl, rfl⟩

theorem passTimerEnds_timerKept (s : State) : TimerKept s (passTimerEnds s) := by
  unfold passTimerEnds
  split
  · exact timerKept_of_standing (passExpiry_standing s)
  · exact timerKept_of_standing rfl

theorem expiries_timerKept : ∀ e ∈ expiries, ∀ s, TimerKept s (e.event s) := by
  intro e he
  have hside : ∀ sd, ∀ e ∈ sideExpiries sd, ∀ s, TimerKept s (e.event s) := by
    intro sd e he
    simp only [sideExpiries, List.mem_cons, List.not_mem_nil, or_false] at he
    rcases he with rfl | rfl | rfl | rfl
    · exact fun s => timerKept_of_standing (answerExpires_standing sd s)
    · exact fun s => timerKept_of_standing (holdExpires_standing sd s)
    · exact fun s => timerKept_of_standing (fieldEmptied_standing sd s)
    · exact fun s => timerKept_of_standing (pollExpires_standing sd s)
  simp only [expiries, List.mem_append] at he
  obtain (he | he) | he := he
  · simp only [lineExpiries, List.mem_cons, List.not_mem_nil, or_false] at he
    rcases he with rfl | rfl | rfl | rfl | rfl | rfl | rfl
    · exact periodExpires_timerKept false
    · exact watchExpires_timerKept
    · exact advanceLineTime_timerKept
    · exact fun s => timerKept_of_standing (modRing_standing _ s rfl)
    · exact fun s => timerKept_of_standing (modGate_standing _ s)
    · exact fun s => timerKept_of_standing (modGate_standing _ s)
    · exact passTimerEnds_timerKept
  · exact hside .a e he
  · exact hside .b e he

theorem takeExpiries_timerKept {l : List Expiry} (hl : ∀ e ∈ l, ∀ s, TimerKept s (e.event s))
    (s : State) : TimerKept s (takeExpiries l s) := by
  induction l generalizing s with
  | nil => exact timerKept_of_standing rfl
  | cons e rest ih =>
    have hfire : TimerKept s (fire e.due e.event s) := by
      obtain hf | hf := fire_eq e.due e.event s <;> rw [hf]
      · exact timerKept_of_standing rfl
      · exact (hl e List.mem_cons_self s).trans (timerKept_of_standing (settle_standing _))
    exact hfire.trans (ih (fun x hx => hl x (List.mem_cons_of_mem e hx)) _)

/-- Settles O2: the idle step takes the expiries one after the other, of which none or one is due. -/
theorem idleStepPassesOneMillisecond : Obligations.IdleStepPassesOneMillisecond := by
  intro s hpending
  refine ⟨?step, fun hp => if_neg hp, fun hp => ?running⟩
  case step =>
    unfold step
    rw [hpending]
  case running =>
    intro down channel tap stop moved
    have hmoved : moved = moveTimers s := by
      simp only [moved, moveTimers, tickClock, Bool.and_eq_true, Bool.not_eq_true']
      rfl
    rw [hmoved]
    have hkept := takeExpiries_timerKept expiries_timerKept (moveTimers s)
    rw [← tick_running hp] at hkept
    refine ⟨fun hnone => ?_, fun c t hone he hnone => ?_, hkept.localMs, hkept.pending.trans hpending,
      hkept.keys, hkept.loader, hkept.decoder, hkept.setup, hkept.emerg⟩
    · rw [dueExpiries_eq] at hnone
      rw [tick_running hp]
      exact takeExpiries_none expiries_sound hnone
    · rw [dueExpiries_eq] at hone hnone
      rw [tick_running hp]
      exact takeExpiries_one expiries_sound hp hone he hnone

end Sys2Proof.Machine

/-! ## The card path: channels and windows (chapter 1) -/

namespace Sys2Proof.Machine

/-! ### One event of a running part -/

/-- A command of a running part is its effect and the end of the event. -/
theorem exec_settles {c : Instr} {f : State → State} {s t : State}
    (hc : exec c s = answered (live f s)) (hp : s.power = .running) (h : f s = t) :
    exec c s = .next (settle t) := by
  rw [hc, live_running hp, h]
  rfl

/-! ### Refusals of a transaction that holds nothing (R36) -/

/-- A refusal's clauses read of the state before it no channel, engine or arbiter, and of the transaction its
UID alone. -/
theorem Refused.of_same {sd : Side} {code : RefusalCode} {s s' t : State} (h : Refused sd code s' t)
    (hstanding : standing s' = standing s) (huid : tapUid s' sd = tapUid s sd)
    (hother : s'.taps.get sd.other = s.taps.get sd.other) (hcontexts : s'.contexts = s.contexts)
    (hsightings : s'.sightings = s.sightings) (hstore : s'.store = s.store) (hgate : s'.gate = s.gate)
    (hjournal : s'.journal = s.journal) (hdraws : s'.draws = s.draws) : Refused sd code s t := by
  have hclock : s'.clock = s.clock := congrArg Standing.clock hstanding
  obtain ⟨halt, ending, refusal, stop, counted, stored, unrecorded, others⟩ := h
  rw [hgate] at stop
  rw [hjournal] at counted unrecorded
  rw [hjournal, huid, hclock] at stored
  rw [hstanding, hother, hcontexts, hsightings, hstore, hgate, hdraws] at others
  exact ⟨halt, ending, refusal, stop, counted, stored, unrecorded, others⟩

/-- A transaction holds nothing where its reservations and the contexts are those of one that does. -/
theorem HoldsNothing.of_same {sd : Side} {s s' : State} (h : HoldsNothing s sd)
    (hg : (s'.taps.get sd).record.holdsGrant = (s.taps.get sd).record.holdsGrant)
    (hj : (s'.taps.get sd).record.holdsJournal = (s.taps.get sd).record.holdsJournal)
    (hi : (s'.taps.get sd).record.holdsInsertion = (s.taps.get sd).record.holdsInsertion)
    (hc : s'.contexts = s.contexts) : HoldsNothing s' sd := by
  refine ⟨hg.trans h.grant, hj.trans h.journal, hi.trans h.insertion, ?_⟩
  unfold heldContext
  rw [hc]
  exact h.context

/-! ### Windows (R10 to R12) -/

theorem openWindow_some {s : State} {sd : Side} {o : Outstanding}
    (ht : (s.chans.get sd).answerTimer.isSome) (ho : (s.chans.get sd).outstanding = some o) :
    openWindow s sd = some o := (if_pos ht).trans ho

theorem openWindow_none {s : State} {sd : Side}
    (h : (s.chans.get sd).outstanding = none ∨ (s.chans.get sd).answerTimer = none) :
    openWindow s sd = none := by
  unfold openWindow
  obtain h | h := h <;> rw [h]
  · exact ite_self _
  · rfl

theorem answerArrives_open {s : State} {sd : Side} {o : Outstanding} (report : AirReport)
    (h : openWindow s sd = some o) :
    answerArrives sd report s = endWindow sd o (windowOutcome o.cmd report) s := by
  unfold answerArrives
  rw [h]

theorem answerExpires_open {s : State} {sd : Side} {o : Outstanding} (h : openWindow s sd = some o) :
    answerExpires sd s = endWindow sd o .nothing s := by
  unfold answerExpires
  rw [h]

theorem endWindow_polling {s : State} {sd : Side} (o : Outstanding) (out : WindowEnd)
    (h : (s.chans.get sd).state = .polling) : endWindow sd o out s = pollingEnd sd o.attempt out s := by
  unfold endWindow
  rw [h]

theorem endWindow_awaitRemoval {s : State} {sd : Side} (o : Outstanding) (out : WindowEnd)
    (h : (s.chans.get sd).state = .awaitRemoval) : endWindow sd o out s = awaitEnd sd out s := by
  unfold endWindow
  rw [h]

theorem endWindow_engaged {s : State} {sd : Side} (o : Outstanding) (out : WindowEnd)
    (h : (s.chans.get sd).state = .engaged) : endWindow sd o out s = engagedEnd sd o out s := by
  unfold endWindow
  rw [h]

/-- A window closed (R10). -/
theorem clearCommand_eq (sd : Side) (s : State) :
    clearCommand sd s = { s with chans := s.chans.set sd (windowClosed (s.chans.get sd)) } := rfl

/-- A command sent opens its window (R10). -/
theorem sendCommand_eq {sd : Side} {cmd : AirCommand} (n : Nat) (s : State) (h : cmd ≠ .halt) :
    sendCommand sd cmd n s =
      { s with
        chans := s.chans.set sd
          { s.chans.get sd with outstanding := some ⟨cmd, n⟩, answerTimer := some 5 } } := by
  have hw : windowOf cmd = some 5 := by
    cases cmd with
    | halt => exact absurd rfl h
    | _ => rfl
  unfold sendCommand modChan setChan
  rw [hw]

/-- HALT asked (R13, R46). -/
theorem askHalt_eq (sd : Side) (s : State) : askHalt sd s = haltAsked sd s := rfl

/-- Settles O12. -/
theorem channelTimersExpire : Obligations.ChannelTimersExpire := by
  intro sd s hp
  refine ⟨fun ht hst => ?poll, fun ht hst => ?field⟩
  case poll =>
    refine exec_settles (f := pollExpires sd) rfl hp ?_
    have hwake : pollExpires sd s = sendWake sd s := by
      unfold pollExpires
      rw [if_pos ht]
      obtain hst | hst := hst <;> rw [hst]
    rw [hwake]
    simp [sendWake, sendCommand, modChan, setChan, windowOf]
  case field =>
    refine exec_settles (f := fieldEmptied sd) rfl hp ?_
    unfold fieldEmptied
    rw [if_pos ⟨hst, ht⟩, clearCommand_eq]
    simp [modChan, setChan, windowClosed]

/-- Settles O14: no window open, then the ends of a WAKE window in POLLING and in AWAIT_REMOVAL. -/
theorem wakeWindowsWithoutACard : Obligations.WakeWindowsWithoutACard := by
  intro sd n report s hp
  refine ⟨fun hnone => ?closed, fun hst ho ht => ?polling, fun hst ho ht => ?await⟩
  case closed =>
    refine exec_settles (f := answerArrives sd report) rfl hp ?_
    unfold answerArrives
    rw [openWindow_none hnone]
  case polling =>
    have hopen := openWindow_some ht ho
    refine ⟨?expires, ?badFrame, ?collision⟩
    case expires =>
      refine exec_settles (f := answerExpires sd) rfl hp ?_
      rw [answerExpires_open hopen, endWindow_polling _ _ hst]
      rfl
    case badFrame =>
      refine exec_settles (f := answerArrives sd .badFrame) rfl hp ?_
      rw [answerArrives_open _ hopen, endWindow_polling _ _ hst]
      show (if n = 1 then _ else _) = _
      split <;> rfl
    case collision =>
      refine exec_settles (f := answerArrives sd .collision) rfl hp ?_
      rw [answerArrives_open _ hopen, endWindow_polling _ _ hst]
      show twoCards sd s = _
      unfold twoCards
      rw [clearCommand_eq]
      simp [modChan, setChan, startStop, modGate]
  case await =>
    have hopen := openWindow_some ht ho
    have hany : ∀ out, out ≠ .nothing → awaitEnd sd out s =
        { s with
          chans := s.chans.set sd { windowClosed (s.chans.get sd) with fieldEmpty := some 0 } } := by
      intro out hout
      unfold awaitEnd
      split
      · exact absurd rfl hout
      · rw [clearCommand_eq]
        simp [modChan, setChan]
    refine ⟨?_, ?_⟩
    · refine exec_settles (f := answerExpires sd) rfl hp ?_
      rw [answerExpires_open hopen, endWindow_awaitRemoval _ _ hst]
      rfl
    · refine exec_settles (f := answerArrives sd report) rfl hp ?_
      rw [answerArrives_open _ hopen, endWindow_awaitRemoval _ _ hst]
      refine hany _ ?_
      unfold windowOutcome
      repeat' split
      all_goals simp

/-! ### Commands asked of an engaged channel (R18) -/

theorem ask_eq {sd : Side} {cmd : AirCommand} {s : State} (hl : (s.chans.get sd).lost = false)
    (h : cmd ≠ .halt) :
    ask sd cmd s = { s with chans := s.chans.set sd (commanded cmd (s.chans.get sd)) } := by
  unfold ask
  rw [hl]
  exact sendCommand_eq 1 s h

/-- A command asked behind the end of a window. -/
theorem ask_afterWindow {sd : Side} {cmd : AirCommand} {s : State} (p : Sided Tap)
    (hl : (s.chans.get sd).lost = false) (h : cmd ≠ .halt) :
    ask sd cmd { clearCommand sd s with taps := p } =
      { s with chans := s.chans.set sd (commanded cmd (s.chans.get sd)), taps := p } := by
  rw [ask_eq (by simp [clearCommand, hl]) h]
  simp [clearCommand, modChan, setChan, commanded]

/-- An answer of an engaged channel that fits its command completes it. -/
theorem exec_answer {sd : Side} {s : State} {o : Outstanding} {answer : AirAnswer}
    (hp : s.power = .running) (hst : (s.chans.get sd).state = .engaged)
    (ht : (s.chans.get sd).answerTimer.isSome) (ho : (s.chans.get sd).outstanding = some o)
    (hout : windowOutcome o.cmd (.good answer) = .good answer) {t : State}
    (h : engagedEnd sd o (.good answer) s = t) :
    exec (.airAnswerArrival sd (.good answer)) s = .next (settle t) := by
  refine exec_settles (f := answerArrives sd (.good answer)) rfl hp ?_
  rw [answerArrives_open _ (openWindow_some ht ho), endWindow_engaged _ _ hst, hout]
  exact h

theorem windowOutcome_block {n : Nat} {bytes : List Byte} (h : bytes.length = 16) :
    windowOutcome (.read n) (.good (.data bytes)) = .good (.data bytes) := by
  simp [windowOutcome, answerFits, h]

theorem enterAuthenticating_keys {sd : Side} {s : State} {auth code : Key}
    (ha : cardMaster s .cardAuth (blockKeyVersion (tapBlock0 s sd)) = some auth)
    (hc : cardMaster s .cardCode (blockKeyVersion (tapBlock0 s sd)) = some code) :
    enterAuthenticating sd s =
      askEngine sd (.deriveAuth auth code) (setTapState sd .authenticating s) := by
  unfold enterAuthenticating
  dsimp only
  rw [ha, hc]

theorem enterAuthenticating_noKey {sd : Side} {s : State}
    (h : cardMaster s .cardAuth (blockKeyVersion (tapBlock0 s sd)) = none ∨
      cardMaster s .cardCode (blockKeyVersion (tapBlock0 s sd)) = none) :
    enterAuthenticating sd s = refuse sd .noKey (setTapState sd .authenticating s) := by
  unfold enterAuthenticating
  dsimp only
  split
  · next ha hc => simp [ha, hc] at h
  · rfl

/-- A refusal leaves the name of the state, the code engines and, of the record, block 0. -/
theorem refuse_nothing_tap {sd : Side} {s : State} (code : RefusalCode) (h : HoldsNothing s sd) :
    ((refuse sd code s).taps.get sd).state = (s.taps.get sd).state ∧
      ((refuse sd code s).taps.get sd).record.block0 = (s.taps.get sd).record.block0 ∧
      (refuse sd code s).engines = s.engines := by
  rw [refuse_nothing code h]
  simp

/-- Settles O13. -/
theorem cardFoundStartsATransaction : Obligations.CardFoundStartsATransaction := by
  intro sd n s hp ht next
  refine ⟨fun u hst ho => ?found, fun hst hl => ⟨fun u ho => ?selected, fun bytes ho htap hlen => ?read⟩⟩
  case found =>
    refine exec_settles (f := answerArrives sd (.good (.uid u))) rfl hp ?_
    rw [answerArrives_open _ (openWindow_some ht ho), endWindow_polling _ _ hst]
    show cardFound sd u s = _
    unfold cardFound startTap
    rw [ask_eq (by simp [modChan, setChan]) (by simp), clearCommand_eq]
    simp [modChan, setChan, setTap, commanded, windowClosed]
  case selected =>
    refine exec_answer hp hst ht ho rfl ?_
    exact ask_afterWindow _ hl (by simp)
  case read =>
    intro version read
    have hread : ∀ t, enterAuthenticating sd
        (modRecord sd (fun r => { r with block0 := some bytes }) (clearCommand sd s)) = t →
        exec (.airAnswerArrival sd (.good (.data bytes))) s = .next (settle t) := by
      intro t h
      refine exec_answer hp hst ht ho (windowOutcome_block hlen) ?_
      show tapRead sd 0 bytes (clearCommand sd s) = t
      rw [← h]
      unfold tapRead
      rw [show ((clearCommand sd s).taps.get sd).state = .identifying from htap]
    let kept := modRecord sd (fun r => { r with block0 := some bytes }) (clearCommand sd s)
    have hversion : blockKeyVersion (tapBlock0 kept sd) = version := by
      simp [kept, tapBlock0, modRecord, version]
    refine ⟨fun auth code hauth hcode => hread _ ?_, fun hmissing hholds => ?_⟩
    · rw [enterAuthenticating_keys (s := kept) (auth := auth) (code := code)
        (by rw [hversion]; exact hauth) (by rw [hversion]; exact hcode)]
      simp [kept, askEngine, setEngine, setTapState, modRecord, modTap, setTap, clearCommand_eq, read]
    · let entered := setTapState sd .authenticating kept
      have hnothing : HoldsNothing entered sd := by
        refine hholds.of_same ?_ ?_ ?_ rfl <;>
          simp [entered, kept, setTapState, modRecord, clearCommand_eq]
      have hengaged : (entered.chans.get sd).state = .engaged := by
        simp [entered, kept, setTapState, modRecord, modTap, setTap, clearCommand, hst]
      have hrefused := refuse_refused .noKey hnothing hengaged
      obtain ⟨hname, hblock, hengines⟩ := refuse_nothing_tap .noKey hnothing
      refine ⟨_, hread _ (enterAuthenticating_noKey (s := kept) (by rw [hversion]; exact hmissing)),
        hrefused.of_same rfl ?_ ?_ rfl rfl rfl rfl rfl rfl, ?_, ?_, ?_⟩
      · simp [tapUid, entered, kept, setTapState, modRecord, clearCommand_eq]
      · simp [entered, kept, setTapState, modRecord, clearCommand_eq]
      · rw [settle_taps, hname]
        simp [entered, setTapState]
      · rw [settle_taps, hblock]
        simp [entered, kept, setTapState, modRecord]
      · rw [settle_engines, hengines]
        rfl

end Sys2Proof.Machine

/-! ## The card path: lost cards, the write point and the end of the exchange (chapters 1, 2 and 4) -/

namespace Sys2Proof.Machine

/-- A command that ends the window of an engaged channel without a good answer (R11). -/
def FailsWindow (sd : Side) (c : Instr) : Prop :=
  c = .answerTimerExpiry sd ∨ c = .airAnswerArrival sd .badFrame ∨
    c = .airAnswerArrival sd (.good .nak)

/-- The first failure of a window resends its command, and the second loses the card (R11, R12). -/
theorem exec_failsWindow {sd : Side} {s : State} {c : Instr} {o : Outstanding}
    (hc : FailsWindow sd c) (hp : s.power = .running) (hst : (s.chans.get sd).state = .engaged)
    (ht : (s.chans.get sd).answerTimer.isSome) (ho : (s.chans.get sd).outstanding = some o) :
    exec c s =
      .next (settle (if o.attempt = 1 then sendCommand sd o.cmd 2 s else loseCard sd s)) := by
  have hopen := openWindow_some ht ho
  have hfailed : ∀ out, (∀ answer, out ≠ .good answer) → engagedEnd sd o out s =
      if o.attempt = 1 then sendCommand sd o.cmd 2 s else loseCard sd s := by
    intro out hout
    unfold engagedEnd
    split
    · exact absurd rfl (hout _)
    · rfl
  obtain rfl | rfl | rfl := hc
  · refine exec_settles (f := answerExpires sd) rfl hp ?_
    rw [answerExpires_open hopen, endWindow_engaged _ _ hst]
    exact hfailed _ (by simp)
  · refine exec_settles (f := answerArrives sd .badFrame) rfl hp ?_
    rw [answerArrives_open _ hopen, endWindow_engaged _ _ hst]
    exact hfailed _ (by simp [windowOutcome])
  · refine exec_settles (f := answerArrives sd (.good .nak)) rfl hp ?_
    rw [answerArrives_open _ hopen, endWindow_engaged _ _ hst]
    refine hfailed _ fun answer => ?_
    show (if o.cmd = .wake then WindowEnd.badFrame else .nak) ≠ .good answer
    split <;> simp

/-- The state in which a Tap Controller meets a lost card: the window closed and the lost mark set (R18). -/
def cardGone (sd : Side) (s : State) : State :=
  { s with chans := s.chans.set sd { windowClosed (s.chans.get sd) with lost := true } }

theorem loseCard_eq (sd : Side) (s : State) : loseCard sd s = tapLost sd (cardGone sd s) := by
  have hgone : markLost sd (clearCommand sd s) = cardGone sd s := by
    rw [clearCommand_eq]
    simp [markLost, modChan, setChan, cardGone]
  unfold loseCard
  rw [hgone]

/-- Before DECIDING a lost card ends the transaction with CARD_LOST (R47). -/
theorem tapLost_abandons {sd : Side} {s : State}
    (h : (s.taps.get sd).state ∈ [TapState.selecting, .identifying, .authenticating, .reading]) :
    tapLost sd s = refuse sd .cardLost s := by
  simp only [List.mem_cons, List.not_mem_nil, or_false] at h
  unfold tapLost
  obtain h | h | h | h := h <;> rw [h]

theorem tapLost_finishing {sd : Side} {s : State} (h : (s.taps.get sd).state = .finishing) :
    tapLost sd s = finishEnd sd true s := by
  unfold tapLost
  rw [h]

theorem tapLost_tears {sd : Side} {s : State}
    (h : (s.taps.get sd).state = .writing ∨ (s.taps.get sd).state = .confirming) :
    tapLost sd s = tear sd s := by
  unfold tapLost
  obtain h | h := h <;> rw [h]

/-- FINISHING of a BLOCK action ends with HALT alone (R37). -/
theorem finishEnd_blocked {sd : Side} {missed : Bool} {s : State}
    (h : (s.taps.get sd).record.refusal ≠ none) : finishEnd sd missed s = haltAsked sd s := by
  unfold finishEnd
  rw [if_pos (show blocking s sd = true from Option.isSome_iff_ne_none.mpr h)]
  rfl

/-- FINISHING of an exit closes its open record (R45). -/
theorem finishEnd_exit {sd : Side} {missed : Bool} {s : State}
    (h : (s.taps.get sd).record.refusal = none) :
    finishEnd sd missed s =
      { haltAsked sd s with
        journal := { s.journal with records := closeFirst sd missed s.journal.records } } := by
  unfold finishEnd
  rw [if_neg (by simp [blocking, h])]
  rfl

/-- The record of a tear reads no channel. -/
theorem TearContexts.withChans {sd : Side} {s : State} {d : Decision} {target : SlotId}
    {image : List Byte} {base : Nat} {contexts : List Context} {journal : Journal}
    (p : Sided Channel) (h : TearContexts sd s d target image base contexts journal) :
    TearContexts sd { s with chans := p } d target image base contexts journal := by
  cases h with
  | replaced old hh hc => exact .replaced (s := { s with chans := p }) old hh hc
  | added hh hc hl => exact .added (s := { s with chans := p }) hh hc hl
  | full b c a hh hc hs hl hn hb ha => exact .full (s := { s with chans := p }) b c a hh hc hs hl hn hb ha
  | updated c hh hu hsd ho => exact .updated (s := { s with chans := p }) c hh hu hsd ho
  | overdue c hh hu hsd ho => exact .overdue (s := { s with chans := p }) c hh hu hsd ho

/-- A read-back that differs from the composed block a second time tears (R41). -/
theorem readBack_tears {sd : Side} {s : State} {first : Bool} {bytes : List Byte}
    (hagain : (if first then (s.taps.get sd).record.rewritten.first
      else (s.taps.get sd).record.rewritten.second) = true)
    (hbytes : bytes ≠ composedBlock s sd (if first then firstBlock s sd else secondBlock s sd)) :
    readBack sd (if first then firstBlock s sd else secondBlock s sd) bytes s = tear sd s := by
  have hfirst : decide ((if first then firstBlock s sd else secondBlock s sd) = firstBlock s sd) =
      first := by
    cases first <;> simp [firstBlock, secondBlock]
  unfold readBack
  simp only [hfirst, hagain, hbytes, decide_false, Bool.not_false, Bool.and_self, if_true,
    Bool.false_eq_true, if_false]

/-- A command that tears a transaction does so at the channel as it leaves it (R41, R46, R47). -/
theorem exec_tears {sd : Side} {s : State} {c : Instr} {lost : Bool} (h : Tears sd s c lost)
    (hp : s.power = .running) (hst : (s.chans.get sd).state = .engaged)
    (ht : (s.chans.get sd).answerTimer.isSome) :
    exec c s = .next (settle (tear sd
      { s with chans := s.chans.set sd { windowClosed (s.chans.get sd) with lost := lost } })) := by
  cases h with
  | failed cmd _ hstate hcmd ho hc =>
    rw [exec_failsWindow hc hp hst ht ho, if_neg (by simp), loseCard_eq]
    exact congrArg (fun t => Host.Outcome.next (settle t)) (tapLost_tears hstate)
  | mismatched n first bytes hstate ho hagain hlen hbytes =>
    refine exec_answer hp hst ht ho (windowOutcome_block hlen) ?_
    show tapRead sd _ bytes (clearCommand sd s) = _
    have hconfirming : ((clearCommand sd s).taps.get sd).state = .confirming := hstate
    unfold tapRead
    rw [hconfirming]
    exact readBack_tears (s := clearCommand sd s) hagain hbytes

/-- Settles O15: the resend, the three ends of a second failure, and the tear. -/
theorem failedWindowsOfAnEngagedChannel : Obligations.FailedWindowsOfAnEngagedChannel := by
  intro sd s hp hst ht
  refine ⟨fun cmd fails hcmd hfails => ⟨fun ho => ?resend, fun ho hstate hholds => ?abandoned,
    fun ho hstate => ?finishing⟩, ?torn⟩
  case resend =>
    rw [exec_failsWindow hfails hp hst ht ho, if_pos rfl, sendCommand_eq 2 s hcmd]
  case abandoned =>
    have hexec := exec_failsWindow hfails hp hst ht ho
    rw [if_neg (by simp), loseCard_eq,
      tapLost_abandons (s := cardGone sd s) hstate] at hexec
    have hnothing : HoldsNothing (cardGone sd s) sd := hholds.of_same rfl rfl rfl rfl
    have hengaged : ((cardGone sd s).chans.get sd).state = .engaged := by
      simp [cardGone, windowClosed, hst]
    refine ⟨_, hexec, (refuse_refused .cardLost hnothing hengaged).of_same rfl rfl rfl rfl rfl rfl rfl
      rfl rfl, ?_⟩
    rw [settle_chan, refuse_nothing _ hnothing]
    simp [cardGone, channelEnabled, windowClosed, hst]
  case finishing =>
    intro ended
    have hexec := exec_failsWindow hfails hp hst ht ho
    rw [if_neg (by simp), loseCard_eq, tapLost_finishing (s := cardGone sd s) hstate] at hexec
    refine ⟨fun href => ?_, fun before r after href hrecords hopen hside hbefore => ?_⟩
    · show exec fails s = _
      rw [hexec, finishEnd_blocked (s := cardGone sd s) href]
      simp [haltAsked, cardGone, windowClosed]
    · show exec fails s = _
      rw [hexec, finishEnd_exit (s := cardGone sd s) href]
      simp [haltAsked, cardGone, windowClosed, hrecords, closeFirst_missed hopen hside hbefore]
  case torn =>
    intro tears lost d target image base contexts journal htears hd htarget himage hinsertion hlen hcontexts
      begun
    refine ⟨tearHandOff sd begun, ?_, ?_⟩
    · rw [exec_tears htears hp hst ht, tear_eq]
    · exact tearHandOff_handedOff (s := begun) hd htarget himage hinsertion hlen
        (hcontexts.withChans _)

/-! ### The end of the exchange (R20, R46) -/

/-- The bank reference given back falls by one at its bank, and the other bank stands (R46, R166). -/
theorem bankBack_banks (sd : Side) (s : State) :
    ((s.taps.get sd).record.bank = none → bankBack sd s = s.store) ∧
      ∀ id, (s.taps.get sd).record.bank = some id →
        bankOf (bankBack sd s) id =
          (if (bankOf s.store id).state = .draining ∧ (bankOf s.store id).refs - 1 = 0 then Bank.cold
          else { bankOf s.store id with refs := (bankOf s.store id).refs - 1 }) ∧
        bankOf (bankBack sd s) (otherBank id) = bankOf s.store (otherBank id) := by
  refine ⟨fun h => ?_, fun id h => ?_⟩
  · unfold bankBack
    rw [h]
  · unfold bankBack
    rw [h]
    cases id <;> exact ⟨rfl, rfl⟩

/-- A bank that loses a reference is ACTIVE after it when it was before. -/
theorem bankIn_active_bankBack (sd : Side) (s : State) :
    (bankIn (bankBack sd s) .active).isNone = (bankIn s.store .active).isNone := by
  have hbank : ∀ b : Bank,
      ((if b.state = .draining ∧ b.refs - 1 = 0 then Bank.cold else { b with refs := b.refs - 1 }).state =
          .active) = (b.state = .active) := by
    intro b
    split
    · next h => simp [Bank.cold, h.1]
    · rfl
  unfold bankBack
  split
  · rfl
  · next id _ =>
    cases id <;> (unfold bankIn setBank bankOf; dsimp only)
    · exact congrArg Option.isNone (ite_congr (hbank _) (fun _ => rfl) fun _ => rfl)
    · exact congrArg Option.isNone
        (ite_congr rfl (fun _ => rfl) fun _ => ite_congr (hbank _) (fun _ => rfl) fun _ => rfl)

/-- The enabled condition reads no channel, no transaction and, of the store, only whether a bank is ACTIVE
and the line setup record. -/
theorem sideEnabled_congr {s t : State} {sd : Side} (he : t.emerg = s.emerg) (hg : t.gate = s.gate)
    (hactive : (bankIn t.store .active).isNone = (bankIn s.store .active).isNone)
    (hsetup : t.store.setup = s.store.setup) (hc : t.clock = s.clock) (hr : t.ring = s.ring) :
    sideEnabled t sd = sideEnabled s sd := by
  unfold sideEnabled setupIncludes gateState outOfService
  rw [he, hg, hactive, hsetup, hc, hr]

theorem bankBack_setup (sd : Side) (s : State) : (bankBack sd s).setup = s.store.setup := by
  unfold bankBack
  split
  · rfl
  · exact setBank_setup _ _ _

/-- The state that the exchange-ended event leaves (R20, R46). -/
def exchangeOver (sd : Side) (s : State) : State :=
  { s with
    chans := s.chans.set sd (if sideEnabled s sd then awaitChannel else Channel.cold)
    taps := s.taps.set sd Tap.cold
    store := bankBack sd s }

theorem sideEnabled_exchangeOver (sd : Side) (s : State) :
    sideEnabled (exchangeOver sd s) sd = sideEnabled s sd :=
  sideEnabled_congr rfl rfl (bankIn_active_bankBack sd s) (bankBack_setup sd s) rfl rfl

theorem exchangeEnds_eq {sd : Side} {s : State} (h : haltSent s sd = true) :
    exchangeEnds sd s = exchangeOver sd s := by
  have hended : endTap sd s = { s with taps := s.taps.set sd Tap.cold, store := bankBack sd s } := by
    unfold endTap
    rw [releaseBank_eq]
    rfl
  have henabled : sideEnabled (endTap sd s) sd = sideEnabled s sd := by
    rw [hended]
    exact sideEnabled_congr rfl rfl (bankIn_active_bankBack sd s) (bankBack_setup sd s) rfl rfl
  unfold exchangeEnds
  rw [if_pos h]
  unfold leaveEngaged
  rw [henabled, hended]
  rfl

/-- Settles O16. -/
theorem exchangeEndedLeavesEngaged : Obligations.ExchangeEndedLeavesEngaged := by
  intro sd n s hp hst ho
  have hends := exchangeEnds_eq (sd := sd) (s := s) (by simp [haltSent, hst, ho])
  obtain ⟨hnone, hsome⟩ := bankBack_banks sd s
  have hstanding : standing (exchangeOver sd s) = standing s := by
    rw [← hends]
    exact exchangeEnds_standing sd s
  refine ⟨_, exec_settles (f := exchangeEnds sd) rfl hp hends, ?channel, settle_taps _, fun h => ?_,
    fun id h => ?_, (settle_standing _).trans hstanding, settle_contexts _, settle_sightings _,
    settle_journal _, settle_engines _, settle_queue _⟩
  case channel =>
    rw [settle_chan, sideEnabled_exchangeOver]
    have hchan : (exchangeOver sd s).chans.get sd =
        if sideEnabled s sd then awaitChannel else Channel.cold := Sided.get_set_same _ _ _
    rw [hchan]
    cases sideEnabled s sd <;> rfl
  · rw [settle_store]
    exact hnone h
  · rw [settle_store]
    exact hsome id h

/-! ### The write point (R38, R40, R84) -/

/-- The state at the write point, before a block is asked (R38, R95). -/
def atWritePoint (sd : Side) (state : TapState) (s : State) : State :=
  { s with
    sightings := s.sightings.map (fun e =>
      if e.sighting.uid = tapUid s sd ∧ ownPinned s sd e then { e with displaced := none } else e)
    taps := s.taps.set sd { s.taps.get sd with state := state, hold := none } }

theorem writePoint_eq (sd : Side) (s : State) :
    writePoint sd s = writeFirst sd (atWritePoint sd .writing s) := by
  have hdrop : dropDisplaced sd s =
      { s with
        sightings := s.sightings.map (fun e =>
          if e.sighting.uid = tapUid s sd ∧ ownPinned s sd e then { e with displaced := none }
          else e) } := by
    unfold dropDisplaced modEntry
    refine congrArg (fun es => { s with sightings := es }) (List.map_congr_left fun e _ => ?_)
    by_cases huid : e.sighting.uid = tapUid s sd <;> simp [huid]
  unfold writePoint
  rw [hdrop]
  rfl

/-- The record of the transaction, and so its images, stand at the write point. -/
theorem atWritePoint_record (sd : Side) (state : TapState) (s : State) :
    ((atWritePoint sd state s).taps.get sd).record = (s.taps.get sd).record := by
  simp [atWritePoint]

theorem skipsBlock_atWritePoint (sd : Side) (state : TapState) (s : State) (block : Nat) :
    skipsBlock (atWritePoint sd state s) sd block =
      decide (composedBlock s sd block = blockAsRead s sd block) := by
  unfold skipsBlock composedBlock blockAsRead firstBlock targetOf
  rw [atWritePoint_record]

/-- A command asked at the write point. -/
theorem ask_atWritePoint {sd : Side} {state : TapState} {cmd : AirCommand} {s : State}
    (hl : (s.chans.get sd).lost = false) (hcmd : cmd ≠ .halt) :
    ask sd cmd (atWritePoint sd state s) =
      { atWritePoint sd state s with
        chans := s.chans.set sd (commanded cmd (s.chans.get sd)) } :=
  ask_eq (s := atWritePoint sd state s) hl hcmd

/-- Settles O17. -/
theorem claimHoldExpiryIsTheWritePoint : Obligations.ClaimHoldExpiryIsTheWritePoint := by
  intro sd s hp hstate hending hhold hl first second next
  have hexpires : holdExpires sd s = writeFirst sd (atWritePoint sd .writing s) := by
    unfold holdExpires
    rw [if_pos (by simp [tapIn, hstate, hending, hhold]), writePoint_eq]
  have hrecord := atWritePoint_record sd .writing s
  have hfirst : firstBlock (atWritePoint sd .writing s) sd = first := by
    simp only [firstBlock, targetOf, hrecord, first]
  have hsecond : secondBlock (atWritePoint sd .writing s) sd = second := by
    simp only [secondBlock, targetOf, hrecord, second]
  have hcomposed : ∀ block, composedBlock (atWritePoint sd .writing s) sd block =
      composedBlock s sd block := by
    intro block
    unfold composedBlock firstBlock targetOf
    rw [hrecord]
  refine ⟨fun hdiffers => ?_, fun hsame hdiffers => ?_, fun hsame hsame' => ?_⟩
  · refine exec_settles (f := holdExpires sd) rfl hp ?_
    unfold writeFirst at hexpires
    rw [hexpires, hfirst, skipsBlock_atWritePoint, if_neg (by simpa using hdiffers)]
    unfold askWrite
    rw [hcomposed, ask_atWritePoint hl (by simp)]
    rfl
  · refine exec_settles (f := holdExpires sd) rfl hp ?_
    unfold writeFirst writeSecond at hexpires
    rw [hexpires, hfirst, hsecond, skipsBlock_atWritePoint, skipsBlock_atWritePoint,
      if_pos (by simpa using hsame), if_neg (by simpa using hdiffers)]
    unfold askWrite
    rw [hcomposed, ask_atWritePoint hl (by simp)]
    rfl
  · refine exec_settles (f := holdExpires sd) rfl hp ?_
    unfold writeFirst writeSecond at hexpires
    rw [hexpires, hfirst, hsecond, skipsBlock_atWritePoint, skipsBlock_atWritePoint,
      if_pos (by simpa using hsame), if_pos (by simpa using hsame')]
    unfold enterConfirming
    rw [hfirst]
    have hconfirming : setTapState sd .confirming (atWritePoint sd .writing s) =
        atWritePoint sd .confirming s := by
      simp [setTapState, modTap, setTap, atWritePoint]
    rw [hconfirming, ask_atWritePoint hl (by simp)]
    rfl

end Sys2Proof.Machine

/-! ## The card path: the judgements before check 5 (R27 to R30, R37, R182, R183) -/

namespace Sys2Proof.Machine

/-- An event whose effect is a refusal, on a state that has the items of the one before it but for channels,
engines, port and the notes of the transaction. -/
theorem exec_refuses {c : Instr} {f : State → State} {s m : State} {sd : Side} {code : RefusalCode}
    (hc : exec c s = answered (live f s)) (hp : s.power = .running) (h : f s = refuse sd code m)
    (hm : HoldsNothing m sd) (hst : (m.chans.get sd).state = .engaged)
    (hstanding : standing m = standing s) (huid : tapUid m sd = tapUid s sd)
    (hother : m.taps.get sd.other = s.taps.get sd.other) (hcontexts : m.contexts = s.contexts)
    (hsightings : m.sightings = s.sightings) (hstore : m.store = s.store) (hgate : m.gate = s.gate)
    (hjournal : m.journal = s.journal) (hdraws : m.draws = s.draws) :
    ∃ t, exec c s = .next t ∧ Refused sd code s t :=
  ⟨_, exec_settles hc hp h, (refuse_refused code hm hst).of_same hstanding huid hother hcontexts
    hsightings hstore hgate hjournal hdraws⟩

/-- A completion of a channel's engine whose effect on the idle engine is a refusal. -/
theorem exec_engineRefuses {sd : Side} {keyload : Bool} {s : State} {job : ChanJob}
    {code : RefusalCode} (hp : s.power = .running) (hj : s.engines.get sd = some job)
    (hst : (s.chans.get sd).state = .engaged) (hnothing : HoldsNothing s sd)
    (h : chanEngineDone sd job s = refuse sd code (setEngine sd none s)) :
    ∃ t, exec (.codeEngineDone (.channel sd) keyload) s = .next t ∧ Refused sd code s t :=
  ⟨_, by rw [exec_channelEngineDone hp hj, h],
    (refuse_refused (s := setEngine sd none s) code (hnothing.of_same rfl rfl rfl rfl) hst).of_same
      rfl rfl rfl rfl rfl rfl rfl rfl rfl⟩

/-- Settles O21. -/
theorem identityCodeIsJudged : Obligations.IdentityCodeIsJudged := by
  intro sd keyload s hp hj hst hnothing
  have hrefuses : ∀ code, check2 sd (setEngine sd none s) = refuse sd code (setEngine sd none s) →
      ∃ t, exec (.codeEngineDone (.channel sd) keyload) s = .next t ∧ Refused sd code s t :=
    fun code => exec_engineRefuses hp hj hst hnothing
  refine ⟨fun hbad => hrefuses _ (if_neg hbad), fun hgood => ?_⟩
  have hpasses : check2 sd (setEngine sd none s) = check3 sd (setEngine sd none s) :=
    check2_passes (s := setEngine sd none s) hgood
  refine ⟨fun hblocked => hrefuses _ ?_, fun hunblocked hother => hrefuses _ ?_,
    fun hactive hclass => ?_⟩
  · exact hpasses.trans (if_pos hblocked)
  · exact hpasses.trans ((if_neg hunblocked).trans (if_pos hother))
  · have hchecks : chanEngineDone sd .identity s = askStore sd .lookup (setEngine sd none s) :=
      hpasses.trans (check3_asksLookup hactive hclass)
    rw [exec_channelEngineDone hp hj, hchecks]
    rfl

/-! ### The lookup's answer and the BLOCK action (R30, R37) -/

/-- What a refusal of a transaction that holds nothing records, before HALT. -/
theorem refuseSequence_nothing {s : State} {sd : Side} (kind : JournalKind) (code : RefusalCode)
    (h : HoldsNothing s sd) :
    refuseSequence sd kind code s =
      { s with
        taps := s.taps.set sd
          { s.taps.get sd with record := { (s.taps.get sd).record with refusal := some code } }
        gate :=
          { s.gate with stopTimer := s.gate.stopTimer.set sd (some ⟨2000, categoryOf code⟩) }
        journal :=
          let r := refusalRecord s sd kind code
          { journalOffered r s.journal with
            counters := countRefusal code (journalOffered r s.journal).counters } } := by
  have hr : recordRefusal sd kind code (startStop sd (categoryOf code) s) =
      { s with
        taps := s.taps.set sd
          { s.taps.get sd with record := { (s.taps.get sd).record with refusal := some code } }
        gate :=
          { s.gate with stopTimer := s.gate.stopTimer.set sd (some ⟨2000, categoryOf code⟩) }
        journal :=
          let r := refusalRecord s sd kind code
          { journalOffered r s.journal with
            counters := countRefusal code (journalOffered r s.journal).counters } } := by
    unfold recordRefusal
    rw [offerRecord_eq]
    rfl
  have hc : heldContext (recordRefusal sd kind code (startStop sd (categoryOf code) s)) sd = none := by
    rw [hr]
    exact h.context
  unfold refuseSequence releaseContext
  rw [releaseReservations_nothing h, hc]
  dsimp only
  rw [hr]

theorem countRefusal_refusals (code : RefusalCode) (c : Counters) :
    (countRefusal code c).refusals = advance32 c.refusals := rfl

theorem journalOffered_refusals (r : JournalRecord) (j : Journal) :
    (journalOffered r j).counters.refusals = j.counters.refusals := by
  unfold journalOffered
  split <;> rfl

/-- The record of a BLOCK action is offered before its write is composed (R37). -/
theorem blockAction_eq {sd : Side} {s : State} (h : HoldsNothing s sd) :
    blockAction sd s =
      { s with
        engines := s.engines.set sd (some .blockIdentity)
        taps := s.taps.set sd
          { s.taps.get sd with
            state := .finishing
            record := { (s.taps.get sd).record with refusal := some .hotlisted } }
        gate :=
          { s.gate with
            stopTimer := s.gate.stopTimer.set sd (some ⟨2000, categoryOf .hotlisted⟩) }
        journal :=
          let r := refusalRecord s sd .blocked .hotlisted
          { journalOffered r s.journal with
            counters := countRefusal .hotlisted (journalOffered r s.journal).counters } } := by
  unfold blockAction
  rw [refuseSequence_nothing _ _ h]
  simp [askEngine, setEngine, setTapState, modTap, setTap]

/-- Check 4 notes the answer of the lookup. -/
def lookedUp (sd : Side) (s : State) : State :=
  modRecord sd (fun r => { r with hotlist := some (lookupAnswer s.hot (tapUid s sd)) }) (endGrant s)

theorem lookedUp_holdsNothing {sd : Side} {s : State} (h : HoldsNothing s sd) :
    HoldsNothing (lookedUp sd s) sd := by
  refine h.of_same ?_ ?_ ?_ rfl <;> simp [lookedUp, modRecord, endGrant]

theorem tapUid_lookedUp (sd : Side) (s : State) : tapUid (lookedUp sd s) sd = tapUid s sd := by
  simp [tapUid, lookedUp, modRecord, endGrant]

theorem check4_passes {sd : Side} {s : State}
    (h : (lookupAnswer s.hot (tapUid s sd)).action = none) :
    check4 sd (endGrant s) = askStore sd .check5 (lookedUp sd s) := by
  unfold check4
  rw [show lookupAnswer (endGrant s).hot (tapUid (endGrant s) sd) = lookupAnswer s.hot (tapUid s sd)
    from rfl]
  dsimp only
  rw [h]
  rfl

theorem check4_refuses {sd : Side} {s : State}
    (h : (lookupAnswer s.hot (tapUid s sd)).action = some .refuse) :
    check4 sd (endGrant s) = refuse sd .hotlisted (lookedUp sd s) := by
  unfold check4
  rw [show lookupAnswer (endGrant s).hot (tapUid (endGrant s) sd) = lookupAnswer s.hot (tapUid s sd)
    from rfl]
  dsimp only
  rw [h]
  rfl

theorem check4_blocks {sd : Side} {s : State}
    (h : (lookupAnswer s.hot (tapUid s sd)).action = some .block) :
    check4 sd (endGrant s) = blockAction sd (lookedUp sd s) := by
  unfold check4
  rw [show lookupAnswer (endGrant s).hot (tapUid (endGrant s) sd) = lookupAnswer s.hot (tapUid s sd)
    from rfl]
  dsimp only
  rw [h]
  rfl

section
variable {read : List Byte} (hlen : read.length = 16)
include hlen

/-- The blocked fields of a block 0 are its first twelve bytes but for the status (R3, R37). -/
theorem blockedFields_length : (blockedFields read).length = 12 := by
  simp [blockedFields, bytesOf, hlen]

theorem blockedFields_status : (blockedFields read)[3]? = some 2 := by
  simp [blockedFields, bytesOf, hlen, statusBlocked]

theorem blockedFields_asRead {n : Nat} (hn : n < 12) (hne : n ≠ 3) :
    (blockedFields read)[n]? = read[n]? := by
  simp only [blockedFields, bytesOf, List.getElem?_append, List.getElem?_take, List.getElem?_drop,
    List.length_append, List.length_take, List.length_drop, List.length_singleton, hlen]
  obtain h | h : n < 3 ∨ 3 < n := by omega
  · rw [if_pos (by omega), if_pos (by omega), if_pos (by omega)]
    simp
  · rw [if_neg (by omega), if_pos (by omega)]
    congr 1
    omega

end

/-- Byte 4 of a block is its status (R3). -/
theorem blockStatus_of_byte {b : List Byte} {v : Byte} (h : b[3]? = some v) :
    blockStatus b = v.toNat := by
  have hbyte : bytesOf b 4 4 = [v] := by
    obtain ⟨hlt, hv⟩ := List.getElem?_eq_some_iff.mp h
    simp [bytesOf, List.drop_eq_getElem_cons hlt, hv]
  unfold blockStatus numOf
  rw [hbyte]
  simp [beNat]

/-- Settles O18. -/
theorem hotlistLookupIsAnswered : Obligations.HotlistLookupIsAnswered := by
  refine ⟨fun sd s hp hg hst hnothing => ?_, fun sd keyload s hp hj hst hl => ?_⟩
  · have hexec := exec_hotlistLookup hp hg
    have hheld := lookedUp_holdsNothing hnothing
    refine ⟨fun hnone => ?_, fun hrefuse => ?_, fun hblock => ?_⟩
    · rw [hexec, check4_passes hnone]
      rfl
    · rw [check4_refuses hrefuse] at hexec
      exact ⟨_, hexec, (refuse_refused .hotlisted hheld hst).of_same rfl (tapUid_lookedUp sd s)
        (by simp [lookedUp, modRecord, endGrant]) rfl rfl rfl rfl rfl rfl⟩
    · rw [check4_blocks hblock, blockAction_eq hheld] at hexec
      refine ⟨_, hexec, ?_, ?_, ?_, ?_, fun hfits => ?_⟩
      · simp
      · rw [settle_engines]
        rfl
      · rw [settle_chan]
        show channelEnabled _ (s.chans.get sd) = _
        simp [channelEnabled, hst]
      · rw [settle_journal, countRefusal_refusals, journalOffered_refusals]
        rfl
      · rw [settle_journal]
        refine ⟨{ refusalRecord (lookedUp sd s) sd .blocked .hotlisted with
          sequence := s.journal.nextSequence }, ?_, rfl, rfl, tapUid_lookedUp sd s⟩
        show (journalOffered _ s.journal).records = _
        rw [journalOffered, if_pos hfits]
        rfl
  · intro read fields image
    refine ⟨fun hlen => ⟨?_, fun n hn hne => ?_⟩, fun hlen => ?_⟩
    · have h12 : fields.length = 12 := blockedFields_length hlen
      have hstatus : image[3]? = some 2 :=
        (List.getElem?_append_left (by omega)).trans (blockedFields_status hlen)
      rw [blockStatus_of_byte hstatus]
      rfl
    · have h12 : fields.length = 12 := blockedFields_length hlen
      exact (List.getElem?_append_left (by omega)).trans (blockedFields_asRead hlen hn hne)
    · have hfields : fields.take 12 = fields :=
        List.take_of_length_le (Nat.le_of_eq (blockedFields_length hlen))
      have himage : fields ++ identityCode (tapCodeKey s sd) (tapUid s sd) fields = image := by
        unfold identityCode
        rw [hfields]
      rw [exec_channelEngineDone hp hj, ← himage]
      refine congrArg (fun t => Host.Outcome.next (settle t)) ?_
      exact ask_eq hl (by simp)

/-! ### AUTHENTICATING and READING (R14, R27, R28, R182, R183) -/

theorem windowOutcome_authFirst {bytes : List Byte} (h : bytes.length = 8) :
    windowOutcome .authFirst (.good (.data bytes)) = .good (.data bytes) := by
  simp [windowOutcome, answerFits, h]

theorem windowOutcome_authSecond {bytes response challenge : List Byte} (h : bytes.length = 8) :
    windowOutcome (.authSecond response challenge) (.good (.data bytes)) = .good (.data bytes) := by
  simp [windowOutcome, answerFits, h]

/-- A result noted and the next computation asked, at an engine that has just completed. -/
theorem askEngine_next (sd : Side) (job : ChanJob) (f : TapRecord → TapRecord) (s : State) :
    askEngine sd job (modRecord sd f (setEngine sd none s)) =
      { s with
        engines := s.engines.set sd (some job)
        taps := s.taps.set sd { s.taps.get sd with record := f (s.taps.get sd).record } } := by
  simp [askEngine, setEngine, modRecord, modTap, setTap]

theorem tapRead_reading {sd : Side} {block : Nat} {bytes : List Byte} {s : State}
    (h : (s.taps.get sd).state = .reading) : tapRead sd block bytes s = readingBlock sd block bytes s := by
  unfold tapRead
  rw [h]

/-- The entry to DECIDING takes the ACTIVE bank's reference and version (R28, R167). -/
theorem enterDeciding_eq {sd : Side} {s : State} {id : BankId} (h : bankIn s.store .active = some id) :
    enterDeciding sd s =
      { s with
        arb := { s.arb with tap := s.arb.tap.set sd (some .check1) }
        store := setBank id { bankOf s.store id with refs := (bankOf s.store id).refs + 1 } s.store
        taps := s.taps.set sd
          { s.taps.get sd with
            state := .deciding
            record := { (s.taps.get sd).record with
              decisionTime := some s.clock.lineTime, bank := some id
              fareVersion := some (bankOf s.store id).version } } } := by
  unfold enterDeciding
  dsimp only
  rw [h]
  simp [setTapState, modRecord, modTap, setTap, modBank, modStore, raiseRefs, askStore, modArb]

/-- Settles O22: the eight completions in the order in which they follow one another. -/
theorem cardResponseIsJudged : Obligations.CardResponseIsJudged := by
  intro sd keyload s hp hst hl tap r chan done answered
  have hdone : ∀ {job t}, s.engines.get sd = some job → chanEngineDone sd job s = t → done t := by
    rintro job t hj rfl
    exact exec_channelEngineDone hp hj
  refine ⟨fun auth code hj => hdone hj ?_, fun code hj => hdone hj ?_,
    fun n bytes ho ht hlen => ?_, fun hj => hdone hj ?_,
    fun n response challenge bytes ho ht hlen => ?_, fun hj hnothing => ?_,
    fun block n bytes ho ht hreading hlen => ?_, fun hj => hdone hj ?_,
    fun id hj hbank => hdone hj ?_⟩
  · exact askEngine_next sd _ _ s
  · exact ask_eq hl (by simp)
  · refine exec_answer hp hst ht ho (windowOutcome_authFirst hlen) ?_
    rfl
  · exact ask_eq hl (by simp)
  · refine exec_answer hp hst ht ho (windowOutcome_authSecond hlen) ?_
    rfl
  · split
    next hgood =>
      refine hdone hj ?_
      exact (if_pos hgood).trans (ask_eq hl (by simp))
    next hbad => exact exec_engineRefuses hp hj hst hnothing (if_neg hbad)
  · have hread : ∀ t, readingBlock sd block bytes (clearCommand sd s) = t →
        answered bytes t := by
      intro t h
      refine exec_answer hp hst ht ho (windowOutcome_block hlen) ?_
      exact (tapRead_reading (s := clearCommand sd s) hreading).trans h
    refine ⟨fun hmore => hread _ ?_, fun hlast => hread _ ?_⟩
    · refine (if_pos hmore).trans ?_
      exact ask_afterWindow _ hl (by simp)
    · exact (if_neg (Nat.not_lt.mpr hlast)).trans rfl
  · exact askEngine_next sd _ _ s
  · show enterDeciding sd (modRecord sd _ (setEngine sd none s)) = _
    rw [enterDeciding_eq (s := modRecord sd _ (setEngine sd none s)) hbank]
    simp only [modRecord, modTap_taps, Sided.set_set, Sided.get_set_same]
    rfl

end Sys2Proof.Machine

/-! ## The card path: check 11, CLAIMING entry and the commit (R33 to R45, R95) -/

namespace Sys2Proof.Machine

/-! ### Refusals that give reservations back (R35, R36) -/

/-- A transaction that holds no reservation, and no context in `m`, where `cs` are the contexts with the one
that it has taken up held: giving that one back leaves the contexts of `m`, without a record. -/
structure Unreserved (sd : Side) (cs : List Context) (m : State) : Prop where
  nothing : HoldsNothing m sd
  back : ∀ z : State, z.contexts = cs → releaseContext sd z = { z with contexts := m.contexts }

theorem releaseContext_none {sd : Side} {s : State} (h : heldContext s sd = none) :
    releaseContext sd s = s := by
  unfold releaseContext
  rw [h]

/-- With no context taken up there is none to give back. -/
theorem HoldsNothing.unreserved {sd : Side} {m : State} (h : HoldsNothing m sd) :
    Unreserved sd m.contexts m := by
  refine ⟨h, fun z hz => ?_⟩
  have hnone : heldContext z sd = none := by
    unfold heldContext
    rw [hz]
    exact h.context
  rw [releaseContext_none hnone, ← hz]

/-- A refusal with some reservations taken gives them back, and so is the refusal of the transaction that
has taken none. -/
theorem refuse_givesBack {sd : Side} {code : RefusalCode} {cs : List Context} {m m' : State}
    (h : Unreserved sd cs m) (hback : reservationsBack sd m' = { m with contexts := cs }) :
    refuse sd code m' = refuse sd code m := by
  have hnone : heldContext (recordRefusal sd .refused code (startStop sd (categoryOf code) m)) sd =
      none := by
    rw [recordRefusal_eq]
    exact h.nothing.context
  have hcontexts : (recordRefusal sd .refused code
      (startStop sd (categoryOf code) { m with contexts := cs })).contexts = cs := by
    rw [recordRefusal_eq]
    rfl
  unfold refuse refuseSequence
  rw [releaseReservations_eq, hback, releaseReservations_nothing h.nothing, releaseContext_none hnone,
    h.back _ hcontexts, recordRefusal_eq, recordRefusal_eq]
  rfl

/-- A transaction that holds no reservation is left by giving its reservations back. -/
theorem HoldsNothing.tap_eta {sd : Side} {m : State} (h : HoldsNothing m sd) :
    ({ m.taps.get sd with
      record := { (m.taps.get sd).record with
        holdsGrant := false, holdsJournal := false, holdsInsertion := false } } : Tap) =
      m.taps.get sd := by
  obtain ⟨hg, hj, hi, _⟩ := h
  generalize m.taps.get sd = tap at *
  obtain ⟨_, _, _, ⟨⟩⟩ := tap
  simp_all

/-- A grant slot reserved (R35, R128). -/
def slotReserved (sd : Side) (m : State) : State :=
  let tap := m.taps.get sd
  { m with
    taps := m.taps.set sd { tap with record := { tap.record with holdsGrant := true } }
    gate := { m.gate with reserved := m.gate.reserved + 1 } }

section
variable {sd : Side} {cs : List Context} {m : State} (h : HoldsNothing m sd)
include h

theorem reservationsBack_nothing :
    reservationsBack sd { m with contexts := cs } = { m with contexts := cs } := by
  have hnothing : reservationsBack sd m = m :=
    (releaseReservations_eq sd m).symm.trans (releaseReservations_nothing h)
  exact congrArg (fun z : State => { z with contexts := cs }) hnothing

theorem reservationsBack_slot :
    reservationsBack sd (slotReserved sd { m with contexts := cs }) = { m with contexts := cs } := by
  simp only [reservationsBack, slotReserved, Sided.get_set_same, Sided.set_set, h.journal,
    h.insertion, if_true, Bool.false_eq_true, if_false, Nat.add_sub_cancel, h.tap_eta, sided_self]

theorem reservationsBack_both :
    reservationsBack sd (bothReserved sd { m with contexts := cs }) = { m with contexts := cs } := by
  simp only [reservationsBack, bothReserved, Sided.get_set_same, Sided.set_set,
    h.insertion, if_true, Bool.false_eq_true, if_false, Nat.add_sub_cancel, h.tap_eta, sided_self]

end

/-! ### Check 11 (R35, R128, R191) -/

theorem check11_busy {sd : Side} {s : State} (h : 2 ≤ s.gate.reserved + s.gate.queue.length) :
    check11 sd s = refuse sd .gateBusy s := if_neg (Nat.not_lt.mpr h)

theorem check11_slot {sd : Side} {s : State} (h : s.gate.reserved + s.gate.queue.length < 2) :
    check11 sd s = takeJournal sd (slotReserved sd s) := if_pos h

theorem takeJournal_full {sd : Side} {s : State} (h : journalAvailable s.journal ≤ 32) :
    takeJournal sd (slotReserved sd s) = refuse sd .journalFull (slotReserved sd s) :=
  if_neg (Nat.not_lt.mpr h)

theorem takeJournal_both {sd : Side} {s : State} (h : 32 < journalAvailable s.journal) :
    takeJournal sd (slotReserved sd s) = takeInsertion sd (bothReserved sd s) := by
  refine (if_pos h).trans (congrArg (takeInsertion sd) ?_)
  simp [slotReserved, bothReserved, modRecord, modTap, setTap, modJournal]

/-- What the reservations of the gate and the journal leave of the record. -/
theorem bothReserved_record (sd : Side) (s : State) :
    ((bothReserved sd s).taps.get sd).record =
      { (s.taps.get sd).record with holdsGrant := true, holdsJournal := true } := by
  simp [bothReserved]

theorem takeInsertion_none {sd : Side} {s : State}
    (h : needsInsertion (s.taps.get sd).record = false) :
    takeInsertion sd (bothReserved sd s) = commit sd (bothReserved sd s) := by
  have hboth : needsInsertion ((bothReserved sd s).taps.get sd).record = false := by
    rw [bothReserved_record]
    exact h
  unfold takeInsertion reservedAll
  rw [hboth]
  rfl

/-- The insertion entry reserved: the transaction has its three reservations (R35, R97). -/
def allReserved (sd : Side) (queue : List LineMsg) (s : State) : State :=
  let both := bothReserved sd s
  { both with
    taps := s.taps.set sd
      { s.taps.get sd with
        record := { (s.taps.get sd).record with
          holdsGrant := true, holdsJournal := true, holdsInsertion := true } }
    ring := { s.ring with insertion := queue, intentReserved := s.ring.intentReserved + 1 } }

theorem reserveIntent_of {r : Ring} {queue : List LineMsg} (h : IntentPlace r queue) :
    reserveIntent r =
      some { r with insertion := queue, intentReserved := r.intentReserved + 1 } := by
  unfold reserveIntent
  cases h with
  | free h => rw [if_pos h]
  | displaced before o after hfull hqueue hbefore ho =>
    rw [if_neg (by omega), hqueue, displaceFirst_of hbefore ho]
    rfl

theorem reserveIntent_full {r : Ring} (hfull : 32 ≤ insertionUsed r)
    (hqueue : ∀ x ∈ r.insertion, isIntentMsg x = true) : reserveIntent r = none := by
  unfold reserveIntent
  rw [if_neg (by omega), displaceFirst_none hqueue]
  rfl

theorem takeInsertion_full {sd : Side} {s : State}
    (h : needsInsertion (s.taps.get sd).record = true) (hr : reserveIntent s.ring = none) :
    takeInsertion sd (bothReserved sd s) = refuse sd .lineBusy (bothReserved sd s) := by
  have hboth : needsInsertion ((bothReserved sd s).taps.get sd).record = true := by
    rw [bothReserved_record]
    exact h
  unfold takeInsertion
  rw [if_pos hboth, show (bothReserved sd s).ring = s.ring from rfl, hr]

theorem takeInsertion_all {sd : Side} {s : State} {queue : List LineMsg}
    (h : needsInsertion (s.taps.get sd).record = true) (hr : IntentPlace s.ring queue) :
    takeInsertion sd (bothReserved sd s) = enterClaiming sd (allReserved sd queue s) := by
  have hboth : needsInsertion ((bothReserved sd s).taps.get sd).record = true := by
    rw [bothReserved_record]
    exact h
  have hall : modRecord sd (fun r => { r with holdsInsertion := true })
      { bothReserved sd s with
        ring := { s.ring with insertion := queue, intentReserved := s.ring.intentReserved + 1 } } =
      allReserved sd queue s := by
    simp [modRecord, modTap, setTap, bothReserved, allReserved]
  unfold takeInsertion
  rw [if_pos hboth, show (bothReserved sd s).ring = s.ring from rfl, reserveIntent_of hr]
  dsimp only
  rw [hall]
  have hneeds : needsInsertion ((allReserved sd queue s).taps.get sd).record = true := by
    simp only [allReserved, Sided.get_set_same]
    exact h
  exact if_pos hneeds

/-- The refusals of check 11 (R35). -/
theorem check11_reserves {sd : Side} {cs : List Context} {m : State} (h : Unreserved sd cs m)
    (he : (m.chans.get sd).state = .engaged) :
    ReservesOrRefuses sd m (.next (settle (check11 sd { m with contexts := cs }))) := by
  have hrefused : ∀ code m', reservationsBack sd m' = { m with contexts := cs } →
      check11 sd { m with contexts := cs } = refuse sd code m' →
      ∃ t, Host.Outcome.next (settle (check11 sd { m with contexts := cs })) =
        (.next t : Host.Outcome State Fault Refusal) ∧ Refused sd code m t := by
    intro code m' hback hcheck
    rw [hcheck, refuse_givesBack h hback]
    exact ⟨_, rfl, refuse_refused code h.nothing he⟩
  refine ⟨fun hbusy => ?_, fun hslot hfull => ?_⟩
  · exact hrefused _ _ (reservationsBack_nothing h.nothing)
      (check11_busy (s := { m with contexts := cs }) hbusy)
  · exact hrefused _ _ (reservationsBack_slot h.nothing)
      ((check11_slot (s := { m with contexts := cs }) hslot).trans (takeJournal_full hfull))

/-! ### The commit without an insertion entry (R35, R43) -/

/-- A commit reads the Recovery Table nowhere but in what it leaves of it. -/
theorem Committed.ofContexts {sd : Side} {d : Decision} {left cs : List Context} {m u : State}
    (h : Committed sd d left { m with contexts := cs } u) : Committed sd d left m u := by
  unfold Committed at h ⊢
  exact h

/-- An accept without an insertion entry commits, or is refused for want of a reservation. -/
theorem check11_commits {sd : Side} {cs left : List Context} {d : Decision} {m : State}
    (h : Unreserved sd cs m) (he : (m.chans.get sd).state = .engaged)
    (hd : (m.taps.get sd).record.decision = some d)
    (hneeds : needsInsertion (m.taps.get sd).record = false)
    (hleft : (dropHeld sd { m with contexts := cs }).contexts = left) :
    Commits sd d left m (.next (settle (check11 sd { m with contexts := cs }))) := by
  refine ⟨check11_reserves h he, fun hslot hroom hl => ?_⟩
  have hcheck : check11 sd { m with contexts := cs } =
      commit sd (bothReserved sd { m with contexts := cs }) := by
    rw [check11_slot (s := { m with contexts := cs }) hslot,
      takeJournal_both (s := { m with contexts := cs }) hroom,
      takeInsertion_none (s := { m with contexts := cs }) hneeds]
  refine ⟨_, congrArg (fun t => Host.Outcome.next (settle t)) hcheck, ?_⟩
  unfold journalAvailable at hroom
  have hcommitted : Committed sd d left (bothReserved sd { m with contexts := cs })
      (commit sd (bothReserved sd { m with contexts := cs })) := by
    refine commit_committed ?_ ?_ ?_ ?_ hl
    · rw [bothReserved_record]
      exact hd
    · rw [← hleft]
      unfold dropHeld
      rw [show heldContext (bothReserved sd { m with contexts := cs }) sd =
        heldContext { m with contexts := cs } sd from rfl]
      split <;> rfl
    · show m.journal.records.length + (m.journal.reserved + 1 - 1) < 1024
      omega
    · show m.gate.queue.length + (m.gate.reserved + 1 - 1) < 2
      omega
  have hheld : bothReserved sd { m with contexts := cs } =
      { bothReserved sd m with contexts := cs } := rfl
  rw [hheld] at hcommitted ⊢
  exact hcommitted.ofContexts

/-! ### CLAIMING entry (R38, R95, R99) -/

/-- The table that the rules give is the one that a new INTENT leaves. -/
theorem claimEntry_of {x : Sighting} {s : State} {table : List SightEntry}
    (h : IntentTable x s.sightings table) : claimEntry x s = { s with sightings := table } := by
  have absent : (∀ e ∈ s.sightings, e.sighting.uid ≠ x.uid) → entryOf s x.uid = none := fun hn =>
    List.find?_eq_none.mpr (fun e he => by simpa using hn e he)
  unfold claimEntry
  cases h with
  | new hn hl =>
    rw [absent hn]
    exact if_pos hl
  | evicted before o after hn hl hq ho hb ha =>
    rw [absent hn]
    dsimp only
    unfold insertEntry
    rw [if_neg (by omega), hq, oldestUnpinned_of ho hb ha]
    dsimp only
    rw [erase_oldest ho hb]
  | standing hs =>
    obtain ⟨e, he⟩ : ∃ e, entryOf s x.uid = some e := by
      refine Option.isSome_iff_exists.mp (List.find?_isSome.mpr ?_)
      simpa using hs
    rw [he]
    rfl

/-- The state at CLAIMING entry before anything is judged (R38, R95). -/
def claimingEntered (sd : Side) (table : List SightEntry) (s : State) : State :=
  let x := ownIntent sd (checkedTc s sd) s
  { s with
    sightings := table
    ring :=
      { s.ring with
        insertion := s.ring.insertion ++ [.sighting x], intentReserved := s.ring.intentReserved - 1 }
    taps := s.taps.set sd
      { s.taps.get sd with
        state := .claiming, hold := some 20
        record := { (s.taps.get sd).record with holdsInsertion := false, intent := some x } } }

/-- The finding of the model at CLAIMING entry is the one that R99 gives. -/
theorem claimFinding_eq (sd : Side) (t : Nat) (s : State) :
    claimFinding (purgeSightings s) sd t (entryOf (purgeSightings s) (tapUid s sd)) =
      entryFinding sd t s := by
  unfold claimFinding entryFinding
  rw [show entryOf (purgeSightings s) (tapUid s sd) =
    (liveEntries s s.sightings).find? (fun e => e.sighting.uid = tapUid s sd) from rfl]
  generalize (liveEntries s s.sightings).find? (fun e => e.sighting.uid = tapUid s sd) = found
  cases found with
  | none => rfl
  | some e => rfl

theorem pinnedByOther_iff {s : State} {sd : Side} {e : Option SightEntry} :
    pinnedByOther s sd e = true ↔ ∃ y, e = some y ∧ ownPinned s sd.other y = true := by
  cases e <;> simp [pinnedByOther]

/-- CLAIMING entry leaves what R38, R95 and R99 give, for the table that they give. -/
theorem enterClaiming_of {sd : Side} {s : State} {table : List SightEntry}
    (ht : IntentEnters sd (checkedTc s sd) s table) :
    enterClaiming sd s =
      let judged := judgeSide sd.other (ownIntent sd (checkedTc s sd) s) (some .contest)
        (claimingEntered sd table s)
      match entryFinding sd (checkedTc s sd) s with
      | some (reason, d) => refuseClone sd reason (some d) judged
      | none => judged := by
  obtain ⟨hstands, henters⟩ := ht
  have hentry : entryOf (purgeSightings s) (tapUid s sd) =
      (liveEntries s s.sightings).find? (fun e => e.sighting.uid = tapUid s sd) := rfl
  have hentered : (if pinnedByOther (purgeSightings s) sd (entryOf (purgeSightings s) (tapUid s sd)) then
      purgeSightings s else claimEntry (ownIntent sd (checkedTc s sd) s) (purgeSightings s)) =
      { s with sightings := table } := by
    rw [hentry]
    split
    · next hpinned =>
      rw [hstands (pinnedByOther_iff.mp hpinned)]
      rfl
    · next hpinned =>
      exact claimEntry_of (s := purgeSightings s) (henters fun h => hpinned (pinnedByOther_iff.mpr h))
  have hholding : modTap sd (fun t => { t with state := .claiming, hold := some 20 })
      (modRecord sd
        (fun r =>
          { r with holdsInsertion := false, intent := some (ownIntent sd (checkedTc s sd) s) })
        (modRing (placeIntent (.sighting (ownIntent sd (checkedTc s sd) s)))
          { s with sightings := table })) = claimingEntered sd table s := by
    simp [modTap, modRecord, setTap, modRing, placeIntent, claimingEntered]
  rw [← claimFinding_eq, ← hholding, ← hentered]
  rfl

/-! ### Check 11 up to CLAIMING (R35, R38) -/

section
variable {sd : Side} {cs : List Context} {m : State} {queue : List LineMsg}

/-- What CLAIMING entry reads of the state stands when the reservations are taken. -/
theorem tapUid_allReserved :
    tapUid (allReserved sd queue { m with contexts := cs }) sd = tapUid m sd := by
  simp [tapUid, allReserved]

theorem checkedTc_allReserved {d : Decision} (hd : (m.taps.get sd).record.decision = some d) :
    checkedTc (allReserved sd queue { m with contexts := cs }) sd = d.baseTc := by
  simp [checkedTc, allReserved, hd]

theorem ownIntent_allReserved (t : Nat) :
    ownIntent sd t (allReserved sd queue { m with contexts := cs }) = ownIntent sd t m := by
  unfold ownIntent
  rw [tapUid_allReserved]
  rfl

theorem intentEnters_allReserved {t : Nat} {table : List SightEntry} (h : IntentEnters sd t m table) :
    IntentEnters sd t (allReserved sd queue { m with contexts := cs }) table := by
  unfold IntentEnters at h ⊢
  rw [ownIntent_allReserved, tapUid_allReserved]
  exact h

theorem entryFinding_allReserved (t : Nat) :
    entryFinding sd t (allReserved sd queue { m with contexts := cs }) = entryFinding sd t m := by
  unfold entryFinding
  rw [tapUid_allReserved]
  rfl

/-- The reservations taken and the INTENT entered are the state that check 11 leaves in CLAIMING. -/
theorem claimingEntered_allReserved {d : Decision} {table : List SightEntry} (h : HoldsNothing m sd)
    (hd : (m.taps.get sd).record.decision = some d) :
    claimingEntered sd table (allReserved sd queue { m with contexts := cs }) =
      claimingState sd d queue table cs m := by
  unfold claimingEntered
  rw [checkedTc_allReserved hd, ownIntent_allReserved]
  unfold claimingState
  simp [allReserved, bothReserved, h.insertion]

end

/-- An accept that needs an insertion entry enters CLAIMING, or is refused for want of a reservation. -/
theorem check11_claims {sd : Side} {cs : List Context} {d : Decision} {m : State}
    (h : Unreserved sd cs m) (he : (m.chans.get sd).state = .engaged)
    (hd : (m.taps.get sd).record.decision = some d)
    (hneeds : needsInsertion (m.taps.get sd).record = true) :
    Claims sd d cs m (.next (settle (check11 sd { m with contexts := cs }))) := by
  have hboth : m.gate.reserved + m.gate.queue.length < 2 → 32 < journalAvailable m.journal →
      check11 sd { m with contexts := cs } =
        takeInsertion sd (bothReserved sd { m with contexts := cs }) := fun hslot hroom => by
    rw [check11_slot (s := { m with contexts := cs }) hslot,
      takeJournal_both (s := { m with contexts := cs }) hroom]
  refine ⟨check11_reserves h he, fun hslot hroom hfull hintents => ?_,
    fun queue table hslot hroom hplace henters => ?_⟩
  · rw [hboth hslot hroom, takeInsertion_full (s := { m with contexts := cs }) hneeds
      (reserveIntent_full hfull hintents), refuse_givesBack h (reservationsBack_both h.nothing)]
    exact ⟨_, rfl, refuse_refused _ h.nothing he⟩
  · rw [hboth hslot hroom, takeInsertion_all (s := { m with contexts := cs }) hneeds hplace]
    have hchecked := checkedTc_allReserved (cs := cs) (queue := queue) hd
    have hclaims := enterClaiming_of (s := allReserved sd queue { m with contexts := cs })
      (intentEnters_allReserved (hchecked.symm ▸ henters))
    rw [hchecked, ownIntent_allReserved, entryFinding_allReserved,
      claimingEntered_allReserved h.nothing hd] at hclaims
    refine ⟨_, _, congrArg (fun t => Host.Outcome.next (settle t)) hclaims, sideJudged_iff.mpr rfl,
      fun hnone => ?_, fun reason d' hfound => cloneRefused_iff.mpr ?_⟩
    · rw [hnone]
    · rw [hfound]

end Sys2Proof.Machine

/-! ## The card path: the decision order (R29 to R35) -/

namespace Sys2Proof.Machine

/-! ### The reads of the referenced bank (R174) -/

/-- A read of the referenced bank served under the grant in use (R174). -/
theorem exec_fareBankRead {sd : Side} {s : State} {a : TapAsk} (hp : s.power = .running)
    (hg : s.arb.inUse = some (.tap sd a)) (ha : a ≠ .lookup) :
    exec (.fareBankRead sd) s = .next (settle (bankCheck sd a (endGrant s))) := by
  have hready : grantReady s = s := if_pos (by rw [hg]; rfl)
  refine exec_settles (f := serveBankRead sd) rfl hp ?_
  unfold serveBankRead
  rw [hready]
  dsimp only
  rw [hg]
  exact if_pos ⟨rfl, ha⟩

/-- The port reads none of what a transaction holds. -/
theorem HoldsNothing.endGrant {sd : Side} {s : State} (h : HoldsNothing s sd) :
    HoldsNothing (endGrant s) sd := h.of_same rfl rfl rfl rfl

/-- A refusal in the event of a read served. -/
theorem exec_readRefuses {sd : Side} {s : State} {a : TapAsk} {code : RefusalCode}
    (hp : s.power = .running) (hg : s.arb.inUse = some (.tap sd a)) (ha : a ≠ .lookup)
    (hst : (s.chans.get sd).state = .engaged) (hnothing : HoldsNothing s sd)
    (h : bankCheck sd a (endGrant s) = refuse sd code (endGrant s)) :
    ∃ t, exec (.fareBankRead sd) s = .next t ∧ Refused sd code s t :=
  ⟨_, by rw [exec_fareBankRead hp hg ha, h],
    (refuse_refused code hnothing.endGrant hst).of_same rfl rfl rfl rfl rfl rfl rfl rfl rfl⟩

/-! ### Checks 9 to 11 (R33 to R35) -/

/-- The reuse test of check 9 (R33, R104). -/
theorem reuseFound_iff {s : State} {sd : Side} {u : Uid} {tc window : Nat} :
    reuseFound s sd u tc window = true ↔
      ∃ e, entryOf (purgeSightings s) u = some e ∧ e.sighting.kind = .unused ∧ e.sighting.side = sd ∧
        e.sighting.result = tc ∧ e.contested = false ∧ ageOf s e.sighting.time < window := by
  unfold reuseFound
  cases entryOf (purgeSightings s) u <;> simp [and_assoc]

/-- An accept asks for an insertion entry unless it is a REUSE or a RECOVERED of class (a) (R35). -/
theorem needsInsertion_of {r : TapRecord} {d : Decision} (h : r.decision = some d) :
    needsInsertion r = (decide (d.accept ≠ .reuse) && decide (r.recovery ≠ some .committed)) := by
  unfold needsInsertion
  rw [h]

/-- With no context held a commit leaves the Recovery Table as it is. -/
theorem dropHeld_none {sd : Side} {s : State} (h : heldContext s sd = none) : dropHeld sd s = s := by
  unfold dropHeld
  rw [h]

/-- Check 11 of a transaction with no context taken up, up to the commit. -/
theorem check11_commitsFresh {sd : Side} {d : Decision} {m : State} (h : HoldsNothing m sd)
    (he : (m.chans.get sd).state = .engaged) (hd : (m.taps.get sd).record.decision = some d)
    (hneeds : needsInsertion (m.taps.get sd).record = false) :
    Commits sd d m.contexts m (.next (settle (check11 sd m))) :=
  check11_commits h.unreserved he hd hneeds (congrArg State.contexts (dropHeld_none h.context))

/-- Check 11 of a transaction with no context taken up, up to CLAIMING. -/
theorem check11_claimsFresh {sd : Side} {d : Decision} {m : State} (h : HoldsNothing m sd)
    (he : (m.chans.get sd).state = .engaged) (hd : (m.taps.get sd).record.decision = some d)
    (hneeds : needsInsertion (m.taps.get sd).record = true) :
    Claims sd d m.contexts m (.next (settle (check11 sd m))) :=
  check11_claims h.unreserved he hd hneeds

/-- The history image of an exit alone (R68). -/
theorem exitHistory_eq (sd : Side) (i : FareInput) (a : FareAccept) :
    exitHistory sd i a = if sd = .a then none else some (historyFields i a) := by
  cases sd <;> rfl

/-- Check 10's accept begins the composition of the journey record (R34, R69). -/
theorem check10_accepts {sd : Side} {s : State} {a : FareAccept}
    (h : fareUnit (fareInputOf s sd) = .accept a) :
    check10 sd s =
      askEngine sd
        (.compose (journeyBytes (composeJourney (fareInputOf s sd) a))
          (exitHistory sd (fareInputOf s sd) a))
        (modRecord sd (fun r => { r with decision := some (fareDecision (fareInputOf s sd) a) }) s) := by
  unfold check10
  dsimp only
  rw [h]

theorem check10_refuses {sd : Side} {s : State} {code : RefusalCode}
    (h : fareUnit (fareInputOf s sd) = .refusal code) : check10 sd s = refuse sd code s := by
  unfold check10
  dsimp only
  rw [h]

/-- The decision of the Fare Unit's accept (R34). -/
theorem fareDecision_eq (s : State) (sd : Side) (a : FareAccept) :
    fareDecision (fareInputOf s sd) a =
      { accept := if sd = .a then .entry else .exit
        fare := a.charge, balanceAfter := a.balanceAfter, flags := a.flags
        baseTc := (tapCard s sd).tc, resultTc := (tapCard s sd).tc + 1 } := by
  cases sd <;> rfl

/-- A composed journey record with its record code, and the history image of an exit (R69, log 44). -/
def composed (sd : Side) (image : List Byte) (history : Option HistoryFields) (target : SlotId)
    (s : State) : State :=
  { s with
    engines := s.engines.set sd none
    taps := s.taps.set sd
      { s.taps.get sd with
        record := { (s.taps.get sd).record with
          journeyImage := some
            (image ++ recordCode (tapCodeKey s sd) (tapUid s sd) (slotNumber target) image)
          historyImage := history.map historyBytes } } }

theorem composed_record (sd : Side) (image : List Byte) (history : Option HistoryFields)
    (target : SlotId) (s : State) :
    ((composed sd image history target s).taps.get sd).record =
      { (s.taps.get sd).record with
        journeyImage := some
          (image ++ recordCode (tapCodeKey s sd) (tapUid s sd) (slotNumber target) image)
        historyImage := history.map historyBytes } := by
  simp [composed]

theorem composeDone_eq {sd : Side} {image : List Byte} {history : Option HistoryFields}
    {target : SlotId} {s : State} (h : (s.taps.get sd).record.target = some target) :
    composeDone sd image history (setEngine sd none s) =
      check11 sd (composed sd image history target s) := by
  have htarget : targetOf (setEngine sd none s) sd = target := congrArg (Option.getD · SlotId.a) h
  unfold composeDone
  rw [htarget]
  rfl

/-- Settles O20. -/
theorem decisionOrderFromCheckNine : Obligations.DecisionOrderFromCheckNine := by
  intro sd keyload s hp hst hnothing
  refine ⟨fun hg => ⟨fun hnone => ?_, fun e he hreuses => ?_⟩, fun d hg hd hreuse => ?_, fun hg => ?_,
    fun image history d target hj hd haccept hrecovery htarget => ?_⟩
  · have hfound : reuseFound s sd (tapUid s sd) (tapCard s sd).tc (tapTable s sd).reuseWindow = false :=
      Bool.eq_false_iff.mpr fun h =>
        let ⟨e, he, hreuses⟩ := reuseFound_iff.mp h
        hnone e he hreuses
    rw [exec_fareBankRead hp hg (by simp)]
    exact congrArg (fun t => Host.Outcome.next (settle t)) (if_neg (ne_true_of_eq_false hfound))
  · have hfound : reuseFound s sd (tapUid s sd) (tapCard s sd).tc (tapTable s sd).reuseWindow = true :=
      reuseFound_iff.mpr ⟨e, he, hreuses⟩
    rw [exec_fareBankRead hp hg (by simp)]
    exact congrArg (fun t => Host.Outcome.next (settle t)) (if_pos hfound)
  · rw [exec_fareBankRead hp hg (by simp)]
    refine check11_commitsFresh (m := endGrant s) hnothing.endGrant hst hd ?_
    rw [needsInsertion_of (r := ((endGrant s).taps.get sd).record) hd]
    simp [hreuse]
  · split
    next code hcode => exact exec_readRefuses hp hg (by simp) hst hnothing (check10_refuses hcode)
    next a ha =>
      rw [exec_fareBankRead hp hg (by simp)]
      refine congrArg (fun t => Host.Outcome.next (settle t)) ((check10_accepts (s := endGrant s) ha).trans ?_)
      rw [fareDecision_eq, exitHistory_eq]
      rfl
  · rw [exec_channelEngineDone hp hj]
    show Claims sd d (composed sd image history target s).contexts (composed sd image history target s)
      (.next (settle (composeDone sd image history (setEngine sd none s))))
    rw [composeDone_eq htarget]
    have hrecord := composed_record sd image history target s
    have hholds : HoldsNothing (composed sd image history target s) sd := by
      refine hnothing.of_same ?_ ?_ ?_ rfl <;> rw [hrecord]
    refine check11_claimsFresh hholds hst ?_ ?_
    · rw [hrecord]
      exact hd
    · rw [hrecord]
      refine (needsInsertion_of (d := d) hd).trans ?_
      obtain haccept | haccept := haccept <;> simp [haccept, hrecovery]

/-! ### Checks 1 and 5 to 8 (R29 to R33) -/

/-- The slot that leads is the one that check 6 takes up (R6). -/
theorem leadingSlot_leads {r : TapRecord} {l : SlotId} (h : Leads r l) : leadingSlot r = some l := by
  obtain ⟨hcoded, hother⟩ := h
  unfold leadingSlot
  cases l with
  | a =>
    simp only [recordClass, otherSlot] at hcoded hother
    cases hb : slotCoded r.classB with
    | false => simp [hcoded]
    | true =>
      rw [hcoded]
      exact if_neg (by have := hother hb; omega)
  | b =>
    simp only [recordClass, otherSlot] at hcoded hother
    cases ha : slotCoded r.classA with
    | false => simp [hcoded]
    | true =>
      rw [hcoded]
      exact if_pos (by simpa using hother ha)

theorem leadingSlot_none {r : TapRecord} (h : ∀ l, slotCoded (recordClass r l) = false) :
    leadingSlot r = none := by
  have ha : slotCoded r.classA = false := h .a
  have hb : slotCoded r.classB = false := h .b
  unfold leadingSlot
  rw [ha, hb]

theorem check6_refuses {sd : Side} {s : State}
    (h : ∀ l, slotCoded (recordClass (s.taps.get sd).record l) = false) :
    check6 sd s = refuse sd .codeFail s := by
  unfold check6
  dsimp only
  rw [leadingSlot_none h]

/-- The slots that check 6 chooses, noted in the record (R31). -/
def slotsChosen (r : TapRecord) (l : SlotId) : TapRecord :=
  { r with validSlot := some l, target := some (otherSlot l), cardTc := some (slotTc r l) }

theorem check6_leads {sd : Side} {s : State} {l : SlotId} (h : Leads (s.taps.get sd).record l) :
    check6 sd s =
      if recordClass (s.taps.get sd).record l = some .valid then
        check7 sd (modRecord sd (fun r => slotsChosen r l) s)
      else refuse sd .badRecord s := by
  unfold check6
  dsimp only
  rw [leadingSlot_leads h]
  rfl

/-- No context to take up: check 8 (R32). -/
theorem check7_none {sd : Side} {s : State}
    (h : ∀ c ∈ s.contexts, c.uid = tapUid s sd → c.side ≠ sd ∨ c.holder ≠ none) :
    check7 sd s = check8 sd s := by
  have hnone : takeUpContext s sd = none := by
    unfold takeUpContext
    cases hc : contextOf s (tapUid s sd) with
    | none => rfl
    | some c =>
      have huid : c.uid = tapUid s sd := by simpa using List.find?_some hc
      have hnot := h c (List.mem_of_find?_eq_some hc) huid
      exact if_neg fun hand => hnot.elim (absurd hand.1) (absurd hand.2)
  unfold check7
  rw [hnone]

/-- The only element that has a property is the first one found. -/
theorem find?_only {α : Type} {p : α → Bool} {a : α} {l : List α} (hmem : a ∈ l) (ha : p a = true)
    (hone : ∀ x ∈ l, p x = true → x = a) : l.find? p = some a := by
  obtain ⟨x, hx⟩ := Option.isSome_iff_exists.mp (List.find?_isSome.mpr ⟨a, hmem, ha⟩)
  rw [hx, hone x (List.mem_of_find?_eq_some hx) (List.find?_some hx)]

/-- The context that check 7 takes up (R77). -/
theorem takeUpContext_of {sd : Side} {s : State} {c : Context} (hc : c ∈ s.contexts)
    (huid : c.uid = tapUid s sd) (hsd : c.side = sd) (hholder : c.holder = none)
    (hone : ∀ x ∈ s.contexts, x.uid = c.uid → x = c) : takeUpContext s sd = some c := by
  have hfound : contextOf s (tapUid s sd) = some c :=
    find?_only hc (by simpa using huid) fun x hx hxuid =>
      hone x hx (Eq.trans (by simpa using hxuid) huid.symm)
  unfold takeUpContext
  rw [hfound]
  exact if_pos ⟨hsd, hholder⟩

/-- The card TC is the highest: CARD_EXHAUSTED; any other asks the read of check 9 (R33). -/
theorem check8_eq {sd : Side} {s : State} {tc : Nat} (h : (s.taps.get sd).record.cardTc = some tc) :
    check8 sd s = if tc = 16777215 then refuse sd .cardExhausted s else askStore sd .check9 s := by
  unfold check8 maxTc
  rw [h]
  simp only [Option.some.injEq]

/-! ### A context taken up (R32, R77 to R82) -/

/-- The Recovery Table with the context of a UID held by a side. -/
def contextsHeld (sd : Side) (c : Context) (contexts : List Context) : List Context :=
  contexts.map (fun x => if x.uid = c.uid then { x with holder := some sd } else x)

/-- A context that no transaction holds, not overdue and the only one of its UID. -/
structure Unheld (c : Context) (contexts : List Context) : Prop where
  mem : c ∈ contexts
  holder : c.holder = none
  due : c.overdue = false
  one : ∀ x ∈ contexts, x.uid = c.uid → x = c

/-- The context taken up is the one that the transaction then holds. -/
theorem heldContext_taken {sd : Side} {c : Context} {m z : State} (hm : heldContext m sd = none)
    (hc : Unheld c m.contexts) (hz : z.contexts = contextsHeld sd c m.contexts) :
    heldContext z sd = some { c with holder := some sd } := by
  have hfree : ∀ x ∈ m.contexts, x.holder ≠ some sd := fun x hx => by
    simpa using List.find?_eq_none.mp hm x hx
  unfold heldContext
  rw [hz, contextsHeld, List.find?_map]
  have hfound : m.contexts.find?
      ((fun x : Context => decide (x.holder = some sd)) ∘
        fun x => if x.uid = c.uid then { x with holder := some sd } else x) = some c := by
    refine find?_only hc.mem (by simp) fun x hx hheld => ?_
    by_cases huid : x.uid = c.uid
    · exact hc.one x hx huid
    · simp [huid, hfree x hx] at hheld
  rw [hfound]
  simp

/-- A context taken up and given back leaves the Recovery Table as it was. -/
theorem contextsHeld_back {sd : Side} {c : Context} {contexts : List Context}
    (hc : Unheld c contexts) :
    (contextsHeld sd c contexts).map (fun x => if x.uid = c.uid then { x with holder := none } else x) =
      contexts := by
  unfold contextsHeld
  rw [List.map_map]
  refine (List.map_congr_left fun x hx => ?_).trans (List.map_id _)
  by_cases huid : x.uid = c.uid
  · obtain rfl := hc.one x hx huid
    simp only [Function.comp_apply, if_true, ← hc.holder]
    rfl
  · simp [huid]

theorem HoldsNothing.unreservedHeld {sd : Side} {c : Context} {m : State} (h : HoldsNothing m sd)
    (hc : Unheld c m.contexts) : Unreserved sd (contextsHeld sd c m.contexts) m := by
  refine ⟨h, fun z hz => ?_⟩
  unfold releaseContext
  rw [heldContext_taken h.context hc hz]
  dsimp only
  rw [if_neg (by simp [hc.due]), modContext, hz, contextsHeld_back hc]

/-- The commit removes the context that was taken up (R82). -/
theorem dropHeld_taken {sd : Side} {c : Context} {m : State} (hm : heldContext m sd = none)
    (hc : Unheld c m.contexts) :
    (dropHeld sd { m with contexts := contextsHeld sd c m.contexts }).contexts =
      m.contexts.filter (fun x => x.uid ≠ c.uid) := by
  unfold dropHeld
  rw [heldContext_taken hm hc rfl]
  show (contextsHeld sd c m.contexts).filter (fun x => decide (x.uid ≠ c.uid)) = _
  unfold contextsHeld
  rw [List.filter_map]
  have hkeeps : ((fun x : Context => decide (x.uid ≠ c.uid)) ∘
      fun x => if x.uid = c.uid then { x with holder := some sd } else x) =
      fun x => decide (x.uid ≠ c.uid) := by
    funext x
    by_cases huid : x.uid = c.uid <;> simp [huid]
  rw [hkeeps]
  refine (List.map_congr_left fun x hx => ?_).trans (List.map_id _)
  exact if_neg (by simpa using (List.mem_filter.mp hx).2)

/-- The record of a transaction with the recovery of a context that it has taken up (R79, R80). -/
def recovering (cls : RecoveryClass) (c : Context) (r : TapRecord) : TapRecord :=
  { r with
    recovery := some cls, decision := some (recoveredDecision c), target := some c.target
    journeyImage := some c.journeyImage, historyImage := c.historyImage }

theorem recoverTap_eq (sd : Side) (c : Context) (cls : RecoveryClass) (s : State) :
    recoverTap sd c cls s =
      check11 sd
        { modRecord sd (recovering cls c) s with contexts := contextsHeld sd c s.contexts } := rfl

theorem HoldsNothing.recovering {sd : Side} {c : Context} {cls : RecoveryClass} {m : State}
    (h : HoldsNothing m sd) : HoldsNothing (modRecord sd (recovering cls c) m) sd := by
  refine h.of_same ?_ ?_ ?_ rfl <;> simp [Machine.recovering, modRecord]

/-- The class of a context against the slots that check 6 chose (R78). -/
theorem classifyContext_chosen (r : TapRecord) (l : SlotId) (c : Context) :
    classifyContext (slotsChosen r l) c =
      if l = c.target ∧ slotTc r l = c.baseTc + 1 ∧ slotBytes r l = c.journeyImage then .committed
      else if l ≠ c.target ∧ slotTc r l = c.baseTc then .notLanded else .other := by
  unfold classifyContext
  by_cases hl : l = c.target
  · subst hl
    simp only [slotsChosen, if_true, Option.getD_some, true_and, ne_eq, not_true, false_and, if_false]
    rfl
  · have hvalid : (slotsChosen r l).validSlot ≠ some c.target := by simp [slotsChosen, hl]
    have hlanded : ¬ (l = c.target ∧ slotTc r l = c.baseTc + 1 ∧ slotBytes r l = c.journeyImage) :=
      fun h => hl h.1
    rw [if_neg hvalid, if_neg hlanded]
    exact ite_congr (propext (and_iff_right hl).symm) (fun _ => rfl) fun _ => rfl

theorem check7_recovers {sd : Side} {s : State} {c : Context} {cls : RecoveryClass}
    (hc : takeUpContext s sd = some c) (hcls : classifyContext (s.taps.get sd).record c = cls)
    (hother : cls ≠ .other) : check7 sd s = recoverTap sd c cls s := by
  unfold check7
  rw [hc]
  dsimp only
  rw [hcls]
  cases cls with
  | other => exact absurd rfl hother
  | committed => rfl
  | notLanded => rfl

theorem check7_other {sd : Side} {s : State} {c : Context}
    (hc : takeUpContext s sd = some c)
    (hcls : classifyContext (s.taps.get sd).record c = .other) :
    check7 sd s =
      check8 sd (modRecord sd (fun r => { r with recovery := some .other }) (expireContext c s)) := by
  unfold check7
  rw [hc]
  dsimp only
  rw [hcls]

/-- The state at check 7: the slots chosen, behind the read of check 5. -/
def atCheckSeven (sd : Side) (l : SlotId) (s : State) : State :=
  modRecord sd (fun r => slotsChosen r l) (endGrant s)

theorem atCheckSeven_record (sd : Side) (l : SlotId) (s : State) :
    ((atCheckSeven sd l s).taps.get sd).record = slotsChosen (s.taps.get sd).record l := by
  simp [atCheckSeven, modRecord, endGrant]

/-- What is noted in the record behind the slots chosen. -/
theorem modRecord_atCheckSeven (sd : Side) (l : SlotId) (f : TapRecord → TapRecord) (s : State) :
    modRecord sd f (atCheckSeven sd l s) = modRecord sd (fun r => f (slotsChosen r l)) (endGrant s) := by
  simp [atCheckSeven, modRecord, modTap, setTap]

/-- A context that leaves with its TORN record, behind the slots chosen. -/
theorem atCheckSeven_expired (sd : Side) (l : SlotId) (c : Context) (s : State) :
    modRecord sd (fun r => { r with recovery := some .other })
        { atCheckSeven sd l s with
          contexts := (atCheckSeven sd l s).contexts.filter (fun x => x.uid ≠ c.uid)
          journal :=
            recordOffered (expiryRecord (atCheckSeven sd l s) c) (atCheckSeven sd l s).journal } =
      { modRecord sd (fun r => { slotsChosen r l with recovery := some .other }) (endGrant s) with
        contexts := s.contexts.filter (fun x => x.uid ≠ c.uid)
        journal := recordOffered (expiryRecord s c) s.journal } := by
  show { modRecord sd (fun r => { r with recovery := some .other }) (atCheckSeven sd l s) with
    contexts := s.contexts.filter (fun x => x.uid ≠ c.uid)
    journal := recordOffered (expiryRecord s c) s.journal } = _
  rw [modRecord_atCheckSeven]

theorem tapUid_atCheckSeven (sd : Side) (l : SlotId) (s : State) :
    tapUid (atCheckSeven sd l s) sd = tapUid s sd := by
  unfold tapUid
  rw [atCheckSeven_record]
  rfl

theorem HoldsNothing.atCheckSeven {sd : Side} {s : State} (l : SlotId) (h : HoldsNothing s sd) :
    HoldsNothing (atCheckSeven sd l s) sd := by
  refine h.of_same ?_ ?_ ?_ rfl <;> rw [atCheckSeven_record] <;> rfl

/-- The read of check 5, past checks 5 and 6 (R31). -/
theorem check5_passes {sd : Side} {s : State} {l : SlotId}
    (hday : serviceDay (tapNow s sd) (tapTable s sd).dayStart ≤ blockExpiry (tapBlock0 s sd))
    (hl : Leads (s.taps.get sd).record l)
    (hvalid : recordClass (s.taps.get sd).record l = some .valid) :
    check5 sd (endGrant s) = check7 sd (atCheckSeven sd l s) := by
  unfold check5
  refine (if_neg (Nat.not_lt.mpr hday)).trans ?_
  rw [check6_leads (s := endGrant s) hl]
  exact if_pos hvalid

/-- Check 8 in the event of check 5's read (R33). -/
theorem check8_ends {sd : Side} {m : State} {tc : Nat} {o : Host.Outcome State Fault Refusal}
    (ho : o = .next (settle (check8 sd m))) (htc : (m.taps.get sd).record.cardTc = some tc)
    (hm : HoldsNothing m sd) (hst : (m.chans.get sd).state = .engaged) :
    (tc = 16777215 → ∃ t, o = .next t ∧ Refused sd .cardExhausted m t) ∧
      (tc ≠ 16777215 →
        o = .next (settle
          { m with arb := { m.arb with tap := m.arb.tap.set sd (some .check9) } })) := by
  rw [ho, check8_eq htc]
  refine ⟨fun hmax => ?_, fun hless => ?_⟩
  · rw [if_pos hmax]
    exact ⟨_, rfl, refuse_refused _ hm hst⟩
  · rw [if_neg hless]
    rfl

/-- Settles O19. -/
theorem decisionOrderToCheckEight : Obligations.DecisionOrderToCheckEight := by
  intro sd s hp hst hnothing
  refine ⟨fun hg => ?check1, fun hg => ?check5⟩
  case check1 =>
    split
    next hcard =>
      rw [exec_fareBankRead hp hg (by simp)]
      exact congrArg (fun t => Host.Outcome.next (settle t)) (if_pos hcard)
    next hcard => exact exec_readRefuses hp hg (by simp) hst hnothing (if_neg hcard)
  case check5 =>
    intro r refused day
    have hrefused : ∀ code, check5 sd (endGrant s) = refuse sd code (endGrant s) → refused code s :=
      fun code => exec_readRefuses hp hg (by simp) hst hnothing
    have hsix : day ≤ blockExpiry (tapBlock0 s sd) → check5 sd (endGrant s) = check6 sd (endGrant s) :=
      fun hday => if_neg (Nat.not_lt.mpr hday)
    refine ⟨fun hday => hrefused _ (if_pos hday), fun hday hcoded => hrefused _ ?_,
      fun l hday hl hbad => hrefused _ ?_, fun l hday hl hvalid => ?_⟩
    · exact (hsix hday).trans (check6_refuses (s := endGrant s) hcoded)
    · exact (hsix hday).trans ((check6_leads (s := endGrant s) hl).trans (if_neg hbad))
    · intro chosen withRecord checkEight
      have hrec : ∀ record, ((withRecord record).taps.get sd).record = record :=
        fun record => congrArg Tap.record (Sided.get_set_same _ _ _)
      have hexec : exec (.fareBankRead sd) s =
          .next (settle (check7 sd (atCheckSeven sd l s))) := by
        rw [exec_fareBankRead hp hg (by simp)]
        exact congrArg (fun t => Host.Outcome.next (settle t)) (check5_passes hday hl hvalid)
      have hrecord := atCheckSeven_record sd l s
      have hholds := hnothing.atCheckSeven l
      refine ⟨fun hnone => ?_, fun c hc huid hsd hholder hdue hone => ?_⟩
      · rw [check7_none (s := atCheckSeven sd l s)
          (by rw [tapUid_atCheckSeven]; exact hnone)] at hexec
        exact check8_ends hexec (congrArg TapRecord.cardTc hrecord) hholds hst
      · intro landed notLanded d recovering
        have hunheld : Unheld c (atCheckSeven sd l s).contexts := ⟨hc, hholder, hdue, hone⟩
        have htake : takeUpContext (atCheckSeven sd l s) sd = some c :=
          takeUpContext_of hc (huid.trans (tapUid_atCheckSeven sd l s).symm) hsd hholder hone
        have hclass := classifyContext_chosen r l c
        rw [show slotsChosen r l = ((atCheckSeven sd l s).taps.get sd).record from hrecord.symm]
          at hclass
        have hrecovers : ∀ cls, classifyContext ((atCheckSeven sd l s).taps.get sd).record c = cls →
            cls ≠ .other → exec (.fareBankRead sd) s = .next (settle (check11 sd
              { recovering cls with contexts := contextsHeld sd c s.contexts })) := by
          intro cls hcls hother
          rw [hexec, check7_recovers htake hcls hother, recoverTap_eq, modRecord_atCheckSeven]
          rfl
        have hfree : ∀ cls, HoldsNothing (recovering cls) sd := by
          intro cls
          have hfree := hholds.recovering (c := c) (cls := cls)
          rw [modRecord_atCheckSeven] at hfree
          exact hfree
        have hnoted : ∀ cls, ((recovering cls).taps.get sd).record =
            Machine.recovering cls c chosen := fun cls => hrec _
        have hneeds : ∀ cls, needsInsertion ((recovering cls).taps.get sd).record =
            decide (cls ≠ .committed) := by
          intro cls
          rw [hnoted, needsInsertion_of (d := d) rfl]
          simp [Machine.recovering, d]
        refine ⟨fun hnot => ?_, fun hland => ?_, fun hland hnot => ?_⟩
        · have hcls := hclass.trans ((if_neg fun h => hnot.1 h.1).trans (if_pos hnot))
          rw [hrecovers _ hcls (by simp)]
          exact check11_claims ((hfree _).unreservedHeld hunheld) hst
            (congrArg TapRecord.decision (hnoted _)) (hneeds _)
        · have hcls := hclass.trans (if_pos hland)
          rw [hrecovers _ hcls (by simp)]
          exact check11_commits ((hfree _).unreservedHeld hunheld) hst
            (congrArg TapRecord.decision (hnoted _)) (hneeds _)
            (dropHeld_taken (hfree _).context hunheld)
        · have hcls := hclass.trans ((if_neg hland).trans (if_neg hnot))
          rw [check7_other htake hcls, expireContext_eq, atCheckSeven_expired] at hexec
          refine check8_ends hexec ?_ ?_ hst
          · exact congrArg TapRecord.cardTc (hrec _)
          · refine ⟨(congrArg TapRecord.holdsGrant (hrec _)).trans hnothing.grant,
              (congrArg TapRecord.holdsJournal (hrec _)).trans hnothing.journal,
              (congrArg TapRecord.holdsInsertion (hrec _)).trans hnothing.insertion,
              List.find?_eq_none.mpr fun x hx => ?_⟩
            exact List.find?_eq_none.mp hnothing.context x (List.mem_filter.mp hx).1

end Sys2Proof.Machine

/-! ## The card path: writing, reading back and the commit (R40 to R45) -/

namespace Sys2Proof.Machine

theorem windowOutcome_ack {n : Nat} {bytes : List Byte} :
    windowOutcome (.write n bytes) (.good .ack) = .good .ack := rfl

section
variable {sd : Side} {n : Nat} {s : State} (hp : s.power = .running)
  (hst : (s.chans.get sd).state = .engaged) (ht : (s.chans.get sd).answerTimer.isSome)
include hp hst ht

/-- A WRITE acknowledged at an engaged channel is the next step of its transaction. -/
theorem exec_written {block : Nat} {bytes : List Byte} {t : State}
    (ho : (s.chans.get sd).outstanding = some ⟨.write block bytes, n⟩)
    (h : tapWritten sd block (clearCommand sd s) = t) :
    exec (.airAnswerArrival sd (.good .ack)) s = .next (settle t) :=
  exec_answer hp hst ht ho windowOutcome_ack h

/-- A read-back in CONFIRMING (R41). -/
theorem exec_readBack {block : Nat} {bytes : List Byte} {t : State}
    (ho : (s.chans.get sd).outstanding = some ⟨.read block, n⟩) (hlen : bytes.length = 16)
    (hconfirming : (s.taps.get sd).state = .confirming)
    (h : readBack sd block bytes (clearCommand sd s) = t) :
    exec (.airAnswerArrival sd (.good (.data bytes))) s = .next (settle t) := by
  refine exec_answer hp hst ht ho (windowOutcome_block hlen) ?_
  show tapRead sd block bytes (clearCommand sd s) = t
  rw [← h]
  unfold tapRead
  rw [show ((clearCommand sd s).taps.get sd).state = .confirming from hconfirming]

end

/-- A command asked behind the window just closed, by a transaction as it then is. -/
theorem ask_setTap {sd : Side} {cmd : AirCommand} {s : State} (tap : Tap)
    (hl : (s.chans.get sd).lost = false) (h : cmd ≠ .halt) :
    ask sd cmd (setTap sd tap (clearCommand sd s)) =
      { s with taps := s.taps.set sd tap, chans := s.chans.set sd (commanded cmd (s.chans.get sd)) } :=
  ask_afterWindow _ hl h

theorem ask_cleared {sd : Side} {cmd : AirCommand} {s : State}
    (hl : (s.chans.get sd).lost = false) (h : cmd ≠ .halt) :
    ask sd cmd (clearCommand sd s) =
      { s with
        taps := s.taps.set sd (s.taps.get sd)
        chans := s.chans.set sd (commanded cmd (s.chans.get sd)) } := by
  rw [sided_self]
  exact ask_afterWindow s.taps hl h

theorem closeFirst_done {before after : List JournalRecord} {r : JournalRecord} {sd : Side}
    (hopen : r.isOpen = true) (hside : r.side = sd)
    (hbefore : ∀ x ∈ before, ¬ (x.isOpen = true ∧ x.side = sd)) :
    closeFirst sd false (before ++ r :: after) = before ++ { r with isOpen := false } :: after := by
  induction before with
  | nil => simp [closeFirst, hopen, hside]
  | cons x rest ih =>
    have hx : ¬ ((x.isOpen && decide (x.side = sd)) = true) := by
      simpa using hbefore x (by simp)
    rw [List.cons_append, closeFirst, if_neg hx, ih fun y hy => hbefore y (by simp [hy])]
    rfl

/-! ### The read-back (R41) -/

/-- The two journey blocks of a slot are told apart by their numbers. -/
theorem block_isFirst (s : State) (sd : Side) (first : Bool) :
    decide ((if first then firstBlock s sd else secondBlock s sd) = firstBlock s sd) = first := by
  cases first <;> simp [firstBlock, secondBlock]

/-- A read-back by the block that it is of. -/
theorem readBack_eq {sd : Side} {first : Bool} {bytes : List Byte} {s : State} :
    readBack sd (if first then firstBlock s sd else secondBlock s sd) bytes s =
      let composed := composedBlock s sd (if first then firstBlock s sd else secondBlock s sd)
      let again :=
        if first then (s.taps.get sd).record.rewritten.first
        else (s.taps.get sd).record.rewritten.second
      let seen := if bytes = composed then confirmBlock sd first s else s
      if (!decide (bytes = composed) && again) = true then tear sd s
      else if (first && !again) = true then ask sd (.read (secondBlock s sd)) seen
      else afterReadBack sd seen := by
  unfold readBack
  simp only [block_isFirst, decide_eq_true_eq]

/-- A block that reads back as composed joins the confirmed set (R41). -/
theorem seenBlock_eq (sd : Side) (first : Bool) (good : Prop) [Decidable good] (s : State) :
    (if good then confirmBlock sd first s else s) =
      setTap sd
        { s.taps.get sd with
          record := { (s.taps.get sd).record with
            confirmed :=
              if ¬ good then (s.taps.get sd).record.confirmed
              else if first then { (s.taps.get sd).record.confirmed with first := true }
              else { (s.taps.get sd).record.confirmed with second := true } } } s := by
  by_cases h : good
  · simp only [h, if_true, not_true, if_false]
    rfl
  · simp only [h, if_false, not_false_iff, if_true]
    show s = { s with taps := s.taps.set sd (s.taps.get sd) }
    rw [sided_self]

theorem dropHeld_some {sd : Side} {s : State} {c : Context} (h : heldContext s sd = some c) :
    dropHeld sd s = removeContext c.uid s := by
  unfold dropHeld
  rw [h]

/-- The composed blocks are those of the image and the target of the transaction. -/
theorem composedBlock_congr {s t : State} {sd : Side} (block : Nat)
    (hi : (t.taps.get sd).record.journeyImage = (s.taps.get sd).record.journeyImage)
    (ht : (t.taps.get sd).record.target = (s.taps.get sd).record.target) :
    composedBlock t sd block = composedBlock s sd block := by
  unfold composedBlock firstBlock targetOf
  rw [hi, ht]

/-- A rewritten block is asked with its composed bytes (R41). -/
theorem rewriteBlock_eq {sd : Side} {first : Bool} {s : State} (tap : Tap)
    (hl : (s.chans.get sd).lost = false)
    (hi : tap.record.journeyImage = (s.taps.get sd).record.journeyImage)
    (ht : tap.record.target = (s.taps.get sd).record.target) :
    rewriteBlock sd first (setTap sd tap (clearCommand sd s)) =
      { s with
        taps := s.taps.set sd
          { tap with
            record := { tap.record with
              rewritten :=
                if first then { tap.record.rewritten with first := true }
                else { tap.record.rewritten with second := true } } }
        chans := s.chans.set sd
          (commanded
            (.write (if first then firstBlock s sd else secondBlock s sd)
              (composedBlock s sd (if first then firstBlock s sd else secondBlock s sd)))
            (s.chans.get sd)) } := by
  have hmarked : modRecord sd
      (fun r =>
        { r with
          rewritten :=
            if first then { r.rewritten with first := true }
            else { r.rewritten with second := true } }) (setTap sd tap (clearCommand sd s)) =
      setTap sd
        { tap with
          record := { tap.record with
            rewritten :=
              if first then { tap.record.rewritten with first := true }
              else { tap.record.rewritten with second := true } } } (clearCommand sd s) := by
    simp [modRecord, modTap, setTap]
  have hblock : (if first then firstBlock (setTap sd tap (clearCommand sd s)) sd
      else secondBlock (setTap sd tap (clearCommand sd s)) sd) =
      if first then firstBlock s sd else secondBlock s sd := by
    have htarget : targetOf (setTap sd tap (clearCommand sd s)) sd = targetOf s sd := by
      simp [targetOf, setTap, ht]
    unfold secondBlock firstBlock
    rw [htarget]
  unfold rewriteBlock askWrite
  rw [hmarked, hblock, ask_setTap _ hl (by simp), composedBlock_congr (s := s)]
  · simp [setTap, hi]
  · simp [setTap, ht]

/-- Settles O23. -/
theorem commitConvertsTheReservations : Obligations.CommitConvertsTheReservations := by
  intro sd n s hp hst hl ht tap chan first second next sends
  refine ⟨fun block bytes ho => ?write, fun isFirst bytes hconfirming hlen ho => ?read⟩
  case write =>
    refine ⟨fun hstate hblock hdiffers => ?_, fun hstate hblock => ?_, fun hstate => ?_,
      fun hstate href => ?_, fun before r after hstate href hrecords hopen hside hbefore => ?_⟩ <;>
      refine exec_written hp hst ht ho ?_ <;> unfold tapWritten <;>
      rw [show ((clearCommand sd s).taps.get sd).state = _ from hstate] <;> dsimp only
    · refine (if_pos hblock).trans ((if_neg fun h => hdiffers (of_decide_eq_true h)).trans ?_)
      exact ask_cleared hl (by simp)
    · have hconfirm : enterConfirming sd (clearCommand sd s) = _ := ask_setTap _ hl (by simp)
      refine Eq.trans ?_ hconfirm
      split
      · next hfirst =>
        obtain rfl | ⟨-, hsame⟩ := hblock
        · exact absurd hfirst (Nat.succ_ne_self _)
        · exact if_pos (decide_eq_true hsame)
      · rfl
    · exact ask_cleared hl (by simp)
    · rw [finishEnd_blocked (s := clearCommand sd s) href, clearCommand_eq]
      simp [haltAsked, windowClosed]
    · rw [finishEnd_exit (s := clearCommand sd s) href, clearCommand_eq]
      simp [haltAsked, windowClosed, hrecords, closeFirst_done hopen hside hbefore]
  case read =>
    intro composed again confirmed seen
    have hread : ∀ t, readBack sd (if isFirst then first else second) bytes (clearCommand sd s) = t →
        next (.data bytes) t := fun t h => exec_readBack hp hst ht ho hlen hconfirming h
    have hback : readBack sd (if isFirst then first else second) bytes (clearCommand sd s) = _ :=
      readBack_eq (s := clearCommand sd s)
    have hseen : (if bytes = composed then confirmBlock sd isFirst (clearCommand sd s)
        else clearCommand sd s) = setTap sd { tap with record := seen } (clearCommand sd s) :=
      seenBlock_eq sd isFirst (bytes = composed) (clearCommand sd s)
    have hconfirmed : ((setTap sd { tap with record := seen } (clearCommand sd s)).taps.get
        sd).record.confirmed = confirmed :=
      congrArg (fun t : Tap => t.record.confirmed) (Sided.get_set_same _ _ _)
    have hgoes : isFirst = false ∨ again = true → again = false ∨ bytes = composed →
        readBack sd (if isFirst then first else second) bytes (clearCommand sd s) =
          afterReadBack sd (setTap sd { tap with record := seen } (clearCommand sd s)) := by
      intro hfirst hgood
      refine hback.trans ((if_neg fun h => ?_).trans
        ((if_neg fun h => ?_).trans (congrArg (afterReadBack sd) hseen)))
      · obtain ⟨hbad, hagain⟩ := Bool.and_eq_true_iff.mp h
        obtain hgood | hgood := hgood
        · exact Bool.false_ne_true (hgood.symm.trans hagain)
        · exact of_decide_eq_false (Bool.not_eq_true' _ |>.mp hbad) hgood
      · obtain ⟨hisFirst, hagain⟩ := Bool.and_eq_true_iff.mp h
        obtain hfirst | hfirst := hfirst
        · exact Bool.false_ne_true (hfirst.symm.trans hisFirst)
        · exact Bool.false_ne_true ((Bool.not_eq_true' _ |>.mp hagain).symm.trans hfirst)
    refine ⟨fun hfirst hagain => hread _ ?_, fun hfirst hgood => ⟨fun hc => hread _ ?_,
      fun hc hc' => hread _ ?_, fun d hc hc' hbytes hcap hd haccept hgrant hjournal hinsertion hres
        hres' => ?_⟩⟩
    · refine hback.trans ((if_neg fun h => ?_).trans ((if_pos ?_).trans ?_))
      · exact Bool.false_ne_true (hagain.symm.trans (Bool.and_eq_true_iff.mp h).2)
      · exact Bool.and_eq_true_iff.mpr ⟨hfirst, Bool.not_eq_true' _ |>.mpr hagain⟩
      · exact (congrArg (ask sd _) hseen).trans (ask_setTap _ hl (by simp))
    · refine (hgoes hfirst hgood).trans ((if_pos ?_).trans
        (rewriteBlock_eq (first := true) _ hl rfl rfl))
      rw [hconfirmed, hc]
      rfl
    · refine (hgoes hfirst hgood).trans ((if_neg ?_).trans ((if_pos ?_).trans
        (rewriteBlock_eq (first := false) _ hl rfl rfl)))
      · rw [hconfirmed, hc]
        exact Bool.false_ne_true
      · rw [hconfirmed, hc']
        rfl
    · have hcommits : readBack sd (if isFirst then first else second) bytes (clearCommand sd s) =
          commit sd (setTap sd { tap with record := seen } (clearCommand sd s)) := by
        refine (hgoes hfirst hgood).trans ((if_neg ?_).trans (if_neg ?_))
        · rw [hconfirmed, hc]
          exact Bool.false_ne_true
        · rw [hconfirmed, hc']
          exact Bool.false_ne_true
      have hjournals := hcap.journal
      have hgrants := hcap.grants
      refine ⟨_, hread _ hcommits, commit_committed ?_ ?_ ?_ ?_ ?_⟩
      · exact (congrArg (fun t : Tap => t.record.decision) (Sided.get_set_same _ _ _)).trans hd
      · cases hheld : heldContext s sd with
        | none =>
          exact (congrArg State.contexts
            (dropHeld_none (s := setTap sd { tap with record := seen } (clearCommand sd s)) hheld)).trans
              rfl
        | some c =>
          exact congrArg State.contexts
            (dropHeld_some (s := setTap sd { tap with record := seen } (clearCommand sd s)) hheld)
      · show s.journal.records.length + (s.journal.reserved - 1) < 1024
        omega
      · show s.gate.queue.length + (s.gate.reserved - 1) < 2
        omega
      · exact (congrArg Channel.lost (Sided.get_set_same _ _ _)).trans hl

end Sys2Proof.Machine

/-! ## The memory port: additions, the merge and the loader's writes (chapters 6 and 9) -/

namespace Sys2Proof.Machine

/-! ### Local additions (R113, R174) -/

/-- A UID listed already is not added. -/
theorem addLocal_listed {u : Uid} {h : Hotlist}
    (hl : u ∈ h.localList ∨ ∃ e ∈ activeEntries h, e.uid = u) : addLocal u h = h := by
  unfold addLocal
  simp only [List.contains_iff_mem, listed, List.any_eq_true, decide_eq_true_eq]
  obtain hl | hl := hl
  · exact if_pos hl
  · rw [if_pos hl, ite_self]

/-- A UID that is not listed joins the list, or sets LOCAL_FULL. -/
theorem addLocal_unlisted {u : Uid} {h : Hotlist} (hl : u ∉ h.localList)
    (he : ∀ e ∈ activeEntries h, e.uid ≠ u) :
    addLocal u h =
      if h.localList.length < 256 then { h with localList := h.localList ++ [u] }
      else { h with localFull := true } := by
  have he' : ¬ ∃ e ∈ activeEntries h, e.uid = u := fun ⟨e, hmem, heq⟩ => he e hmem heq
  unfold addLocal
  simp only [List.contains_iff_mem, listed, List.any_eq_true, decide_eq_true_eq]
  rw [if_neg hl, if_neg he']

/-- Settles O24: a UID offered, and one that waited for a grant to end. -/
theorem localAdditionIsJudged : Obligations.LocalAdditionIsJudged := by
  refine fun u s => ⟨fun hp hport => ?_, fun hfree hwait => ?_⟩
  · refine exec_settles (f := offerLocal u) rfl hp ?_
    rw [offerLocal_eq]
    unfold uidOffered
    by_cases huse : s.arb.inUse.isSome = true
    · rw [if_pos (.inl huse), if_pos huse]
    · have hnone := hport.resolve_left huse
      rw [if_neg (by simp [huse, hnone]), if_neg huse]
      split
      · rfl
      · split <;> rfl
  · intro h
    obtain ⟨m, hm⟩ := settle_hot s
    have htaken : additionsTaken s = addLocal u { s.hot with waiting := [] } := by
      unfold additionsTaken takeAdditions
      rw [hfree, hwait]
      rfl
    have hh : h = { addLocal u { s.hot with waiting := [] } with merge := m } := by
      rw [← htaken]
      exact hm
    rw [hh]
    refine ⟨?_, fun hlisted => ?_, fun hl he => ⟨fun hroom => ?_, fun hfull => ?_⟩⟩
    · show (addLocal u { s.hot with waiting := [] }).waiting = []
      unfold addLocal
      repeat' split
      all_goals rfl
    · rw [addLocal_listed (h := { s.hot with waiting := [] }) hlisted]
      exact ⟨rfl, rfl⟩
    · rw [addLocal_unlisted (h := { s.hot with waiting := [] }) hl he, if_pos hroom]
      exact ⟨rfl, rfl⟩
    · rw [addLocal_unlisted (h := { s.hot with waiting := [] }) hl he,
        if_neg (Nat.not_lt.mpr hfull)]
      exact ⟨rfl, rfl⟩

/-! ### The shadow, the swap and the merge (R108, R116, R118, R121) -/

theorem shadowEntries_setShadow (es : List HotEntry) (h : Hotlist) :
    shadowEntries (setShadow es h) = es := by
  unfold shadowEntries setShadow
  cases h.active <;> rfl

theorem activeEntries_setShadow (es : List HotEntry) (h : Hotlist) :
    activeEntries (setShadow es h) = activeEntries h := by
  unfold setShadow
  cases ha : h.active <;> simp [activeEntries, ha]

/-- The shadow replaced changes the two banks alone. -/
theorem setShadow_eq (es : List HotEntry) (h : Hotlist) :
    setShadow es h =
      { h with bank0 := (setShadow es h).bank0, bank1 := (setShadow es h).bank1 } := by
  unfold setShadow
  cases h.active <;> rfl

/-- The swap makes the shadow the active bank. -/
theorem activeEntries_swapBanks (version : Nat) (h : Hotlist) :
    activeEntries (swapBanks version h) = shadowEntries h := by
  unfold swapBanks pruneLocal activeEntries shadowEntries
  cases h.active <;> rfl

theorem shadowEntries_swapBanks (version : Nat) (h : Hotlist) :
    shadowEntries (swapBanks version h) = activeEntries h := by
  unfold swapBanks pruneLocal activeEntries shadowEntries
  cases h.active <;> rfl

/-- What a swap leaves of a Hotlist Store (R114, R118, R121): the new active bank, the old one in the FREE
shadow, the delta ABSENT and the local list pruned. -/
structure Swapped (version : Nat) (h u : Hotlist) : Prop where
  active : activeEntries u = shadowEntries h
  shadowed : shadowEntries u = activeEntries h
  version : u.version = version
  free : u.shadow = .free
  absent : u.deltaCond = .absent
  ops : u.deltaOps = []
  image : u.image = []
  localList : u.localList = h.localList.filter (fun v => !(shadowEntries h).any (fun e => e.uid = v))
  localFull : u.localFull = true ↔ h.localFull = true ∧ 256 ≤ u.localList.length
  waiting : u.waiting = h.waiting

theorem swapBanks_swapped (version : Nat) (h : Hotlist) : Swapped version h (swapBanks version h) := by
  have hlist : (swapBanks version h).localList =
      h.localList.filter (fun v => !(shadowEntries h).any (fun e => e.uid = v)) := by
    unfold swapBanks pruneLocal listed activeEntries shadowEntries
    cases h.active <;> rfl
  refine ⟨activeEntries_swapBanks version h, shadowEntries_swapBanks version h, rfl, rfl, rfl, rfl, rfl,
    hlist, ?_, rfl⟩
  show (h.localFull && decide (256 ≤ (swapBanks version h).localList.length)) = true ↔ _
  rw [Bool.and_eq_true, decide_eq_true_eq]

/-- The step that exhausts both inputs completes the merge (R118). -/
theorem completeMerge_swapped (h : Hotlist) : Swapped h.deltaNew h (completeMerge h) := by
  obtain ⟨ha, hs, hv, hf, hab, ho, hi, hl, hlf, hw⟩ := swapBanks_swapped h.deltaNew h
  exact ⟨ha, hs, hv, hf, hab, ho, hi, hl, hlf, hw⟩

/-- The Hotlist Store after a merge step that has written its shadow. -/
def stepTaken (shadow es : List HotEntry) (os : List DeltaOp) (h : Hotlist) : Hotlist :=
  { setShadow shadow h with mergeEntries := es, mergeOps := os }

theorem mergeAdvance_goesOn {h : Hotlist} {shadow es : List HotEntry} {os : List DeltaOp}
    (ht : mergeTake h = stepTaken shadow es os h) (hmore : es ≠ [] ∨ os ≠ []) :
    mergeAdvance h = stepTaken shadow es os h := by
  unfold mergeAdvance
  rw [ht]
  refine if_neg fun hdone => ?_
  obtain ⟨hes, hos⟩ := Bool.and_eq_true_iff.mp hdone
  exact hmore.elim (absurd (List.isEmpty_iff.mp hes)) (absurd (List.isEmpty_iff.mp hos))

theorem mergeAdvance_completes {h : Hotlist} {shadow : List HotEntry}
    (ht : mergeTake h = stepTaken shadow [] [] h) :
    mergeAdvance h = completeMerge (stepTaken shadow [] [] h) := by
  unfold mergeAdvance
  rw [ht]
  rfl

section
variable {h : Hotlist} {e : HotEntry} {o : DeltaOp} {es : List HotEntry} {os : List DeltaOp}

/-- Where an input is not taken from, it stands. -/
theorem stepTaken_entry (ho : h.mergeOps = os) (shadow : List HotEntry) :
    { setShadow shadow h with mergeEntries := es } = stepTaken shadow es os h := by
  unfold stepTaken
  rw [setShadow_eq, ← ho]

theorem stepTaken_op (he : h.mergeEntries = es) (shadow : List HotEntry) :
    { setShadow shadow h with mergeOps := os } = stepTaken shadow es os h := by
  unfold stepTaken
  rw [setShadow_eq, ← he]

theorem mergeTake_entry (he : h.mergeEntries = e :: es) (ho : h.mergeOps = o :: os)
    (hlt : e.uid < o.uid) : mergeTake h = stepTaken (shadowEntries h ++ [e]) es (o :: os) h := by
  unfold mergeTake
  rw [he, ho]
  exact (if_pos hlt).trans (stepTaken_entry ho _)

theorem mergeTake_op (he : h.mergeEntries = e :: es) (ho : h.mergeOps = o :: os)
    (hlt : o.uid < e.uid) :
    mergeTake h = stepTaken (shadowEntries h ++ opEntries o) (e :: es) os h := by
  unfold mergeTake
  rw [he, ho]
  exact (if_neg (Nat.lt_asymm hlt)).trans ((if_pos hlt).trans (stepTaken_op he _))

theorem mergeTake_both (he : h.mergeEntries = e :: es) (ho : h.mergeOps = o :: os)
    (heq : o.uid = e.uid) : mergeTake h = stepTaken (shadowEntries h ++ opEntries o) es os h := by
  unfold mergeTake
  rw [he, ho]
  exact (if_neg (by simp [heq])).trans (if_neg (by simp [heq]))

theorem mergeTake_lastEntries (he : h.mergeEntries = e :: es) (ho : h.mergeOps = []) :
    mergeTake h = stepTaken (shadowEntries h ++ [e]) es [] h := by
  unfold mergeTake
  rw [he, ho]
  exact stepTaken_entry ho _

theorem mergeTake_lastOps (he : h.mergeEntries = []) (ho : h.mergeOps = o :: os) :
    mergeTake h = stepTaken (shadowEntries h ++ opEntries o) [] os h := by
  unfold mergeTake
  rw [he, ho]
  exact stepTaken_op he _

/-- A merge of two empty inputs writes nothing (log 45). -/
theorem mergeTake_nothing (he : h.mergeEntries = []) (ho : h.mergeOps = []) :
    mergeTake h = stepTaken (shadowEntries h) [] [] h := by
  have hshadow : setShadow (shadowEntries h) h = h := by
    obtain ⟨_, _, active⟩ := h
    cases active <;> rfl
  unfold mergeTake stepTaken
  rw [hshadow, he, ho]
  show h = { h with mergeEntries := [], mergeOps := [] }
  rw [← he, ← ho]

end

/-- A merge step served under the grant in use (R116). -/
theorem exec_mergeStep {s : State} (hp : s.power = .running) (hg : s.arb.inUse = some .merge) :
    exec .mergeStep s = .next (settle (modHot mergeAdvance (endGrant s))) := by
  have hready : grantReady s = s := if_pos (by rw [hg]; rfl)
  refine exec_settles (f := serveMerge) rfl hp ?_
  unfold serveMerge
  rw [hready]
  exact if_pos hg

/-- Settles O25, by what stands at the head of the two inputs. -/
theorem mergeStepTakesTheSmallestUid : Obligations.MergeStepTakesTheSmallestUid := by
  intro e o es os s hp hg written goesOn completes
  have hwritten : opEntries o = written := by cases o <;> rfl
  have hgoes : ∀ shadow es' os', mergeTake s.hot = stepTaken shadow es' os' s.hot →
      es' ≠ [] ∨ os' ≠ [] → goesOn shadow es' os' := by
    intro shadow es' os' ht hmore
    have hadvance := mergeAdvance_goesOn ht hmore
    show exec .mergeStep s = _
    rw [exec_mergeStep hp hg]
    exact congrArg (fun h => Host.Outcome.next (settle { endGrant s with hot := h })) hadvance
  have hcompletes : ∀ shadow, mergeTake s.hot = stepTaken shadow [] [] s.hot → completes shadow := by
    intro shadow ht
    have hadvance : modHot mergeAdvance (endGrant s) =
        { endGrant s with hot := completeMerge (stepTaken shadow [] [] s.hot) } :=
      congrArg (fun h => { endGrant s with hot := h }) (mergeAdvance_completes ht)
    have htaken : stepTaken shadow [] [] s.hot =
      { s.hot with
        bank0 := (setShadow shadow s.hot).bank0, bank1 := (setShadow shadow s.hot).bank1
        mergeEntries := [], mergeOps := [] } := by
      unfold stepTaken
      rw [setShadow_eq]
    have hshadow : shadowEntries (stepTaken shadow [] [] s.hot) = shadow :=
      shadowEntries_setShadow shadow s.hot
    have hactive : activeEntries (stepTaken shadow [] [] s.hot) = activeEntries s.hot :=
      activeEntries_setShadow shadow s.hot
    obtain ⟨ha, hs, hv, hf, hab, hops, -, hl, hlf, hw⟩ :=
      completeMerge_swapped (stepTaken shadow [] [] s.hot)
    rw [hshadow] at ha hl
    rw [hactive] at hs
    have hexec := exec_mergeStep hp hg
    rw [hadvance] at hexec
    refine ⟨_, hexec, ha, hs, hv.trans ?_, hf, hab, hops, rfl, rfl, rfl, hl.trans ?_, hlf.trans ?_,
      hw.trans ?_, rfl⟩ <;> rw [htaken]
  refine ⟨fun he ho hlt => ?_, fun he ho hlt => ?_, fun he ho heq => ?_, fun he ho => ?_,
    fun he ho => ?_, fun he ho => ?_⟩
  · exact hgoes _ _ _ (mergeTake_entry he ho hlt) (.inr (by simp))
  · exact hwritten ▸ hgoes _ _ _ (mergeTake_op he ho hlt) (.inl (by simp))
  · rw [← hwritten]
    split
    next hlast => exact hcompletes _ (by rw [mergeTake_both he ho heq, hlast.1, hlast.2])
    next hmore => exact hgoes _ _ _ (mergeTake_both he ho heq) (Decidable.not_and_iff_or_not.mp hmore)
  · split
    next hlast => exact hcompletes _ (by rw [mergeTake_lastEntries he ho, hlast])
    next hmore => exact hgoes _ _ _ (mergeTake_lastEntries he ho) (.inl hmore)
  · rw [← hwritten]
    split
    next hlast => exact hcompletes _ (by rw [mergeTake_lastOps he ho, hlast])
    next hmore => exact hgoes _ _ _ (mergeTake_lastOps he ho) (.inr hmore)
  · exact hcompletes _ (mergeTake_nothing he ho)

/-! ### The loader (R171 to R173, R199) -/

/-- The request in hand answered without data: the decoder IDLE, the place held filled (R152, R199). -/
theorem answerCode_eq (r : Request) (code : AnswerCode) (s : State) :
    answerCode r code s = requestAnswered r code s := by
  unfold answerCode finishRequest fillAnswer requestAnswered ringFilling modRing modDecoder answerUsed
  dsimp only
  split <;> rfl

/-- A load in progress broken off (R173). -/
theorem breakOff_eq {s : State} {l : Loading} (h : s.loader = some l) :
    breakOff s = loadDiscarded l s := by
  unfold breakOff loadDiscarded
  rw [h]
  dsimp only
  unfold discardLoad
  cases l.kind <;> rfl

theorem failLoad_eq {s : State} {l : Loading} (code : AnswerCode) (h : s.loader = some l) :
    failLoad code s = requestAnswered .loadEnd code (loadDiscarded l s) := by
  unfold failLoad
  rw [answerCode_eq, breakOff_eq h]

/-- Settles O26. -/
theorem loaderWriteAppendsTheData : Obligations.LoaderWriteAppendsTheData := by
  intro l data s hp hg hl
  have hready : grantReady s = s := if_pos (by rw [hg]; rfl)
  refine exec_settles (f := serveWrite) rfl hp ?_
  unfold serveWrite
  rw [hready]
  dsimp only
  rw [hg]
  show loaderWrites data (endGrant s) = _
  unfold loaderWrites
  rw [show (endGrant s).loader = some l from hl]
  dsimp only
  rw [answerCode_eq]
  unfold writeImage requestAnswered
  cases l.kind <;> rfl

/-! ### The reads of a LOAD_END (R172, R185) -/

/-- A read of a LOAD_END served under the grant in use (R172). -/
theorem exec_loaderRead {s : State} {l : Loading} (hp : s.power = .running)
    (hg : s.arb.inUse = some (.loader .read)) (hl : s.loader = some l) :
    exec .loaderRead s = .next (settle (loaderReads l (endGrant s))) := by
  have hready : grantReady s = s := if_pos (by rw [hg]; rfl)
  refine exec_settles (f := serveRead) rfl hp ?_
  unfold serveRead
  rw [hready]
  dsimp only
  rw [hg, hl]

/-- Past the last piece of the contents check the image is judged (R172). -/
theorem loaderReads_contents {s : State} {l : Loading} {n : Nat} (h : l.phase = .contents n) :
    loaderReads l s =
      if l.length ≤ n + 64 then judgeContents l s else askRead l (.contents (n + 64)) s := by
  unfold loaderReads
  rw [h]
  rfl

theorem loaderReads_code {s : State} {l : Loading} {n : Nat} (h : l.phase = .code n) :
    loaderReads l s =
      if l.length ≤ n + 64 then setPhase l .coding (feedTableCode (imagePiece s l n) s)
      else askRead l (.code (n + 64)) (feedTableCode (imagePiece s l n) s) := by
  unfold loaderReads
  rw [h]
  rfl

theorem loaderReads_room {s : State} {l : Loading} {n : Nat} {ops : List DeltaOp}
    (h : l.phase = .room n) (ho : parseDelta s.hot.image = some ops) :
    loaderReads l s =
      if ops.length ≤ n + 1 then acceptDelta ops s else askRead l (.room (n + 1)) s := by
  unfold loaderReads
  rw [h]
  dsimp only
  rw [ho]

/-! ### The merge's operations in UID order (R116) -/

theorem insertByUid_perm (o : DeltaOp) (l : List DeltaOp) : (insertByUid o l).Perm (o :: l) := by
  induction l with
  | nil => rfl
  | cons p rest ih =>
    unfold insertByUid
    split
    · rfl
    · exact (ih.cons p).trans (List.Perm.swap o p rest)

theorem insertByUid_sorted (o : DeltaOp) {l : List DeltaOp}
    (h : l.Pairwise (fun a b => a.uid ≤ b.uid)) :
    (insertByUid o l).Pairwise (fun a b => a.uid ≤ b.uid) := by
  induction l with
  | nil => simp [insertByUid]
  | cons p rest ih =>
    obtain ⟨hp, hrest⟩ := List.pairwise_cons.mp h
    unfold insertByUid
    split
    · next hlt =>
      refine List.pairwise_cons.mpr ⟨fun x hx => ?_, h⟩
      obtain rfl | hx := List.mem_cons.mp hx
      · exact Nat.le_of_lt hlt
      · exact Nat.le_trans (Nat.le_of_lt hlt) (hp x hx)
    · next hge =>
      refine List.pairwise_cons.mpr ⟨fun x hx => ?_, ih hrest⟩
      obtain rfl | hx := List.mem_cons.mp ((insertByUid_perm o rest).mem_iff.mp hx)
      · exact Nat.not_lt.mp hge
      · exact hp x hx

/-- The operations of a delta are taken in UID order, none lost and none added (R116). -/
theorem sortOps_sorted (ops : List DeltaOp) :
    (sortOps ops).Perm ops ∧ (sortOps ops).Pairwise (fun a b => a.uid ≤ b.uid) := by
  have hfold : ∀ l acc : List DeltaOp, acc.Pairwise (fun a b => a.uid ≤ b.uid) →
      (l.foldl (fun l o => insertByUid o l) acc).Perm (l ++ acc) ∧
        (l.foldl (fun l o => insertByUid o l) acc).Pairwise (fun a b => a.uid ≤ b.uid) := by
    intro l
    induction l with
    | nil => exact fun acc h => ⟨.refl _, h⟩
    | cons o rest ih =>
      intro acc hacc
      obtain ⟨hperm, hsorted⟩ := ih (insertByUid o acc) (insertByUid_sorted o hacc)
      refine ⟨hperm.trans ?_, hsorted⟩
      exact ((insertByUid_perm o acc).append_left rest).trans List.perm_middle
  obtain ⟨hperm, hsorted⟩ := hfold ops [] .nil
  exact ⟨hperm.trans (.of_eq (List.append_nil ops)), hsorted⟩

/-! ### What a contents check accepts (R115, R116, R121, R165, R168) -/

theorem loadDone_eq (s : State) :
    loadDone s = requestAnswered .loadEnd .done { s with loader := none } := answerCode_eq _ _ _

/-- A bank made PENDING is the one that is, when the other is not (R166). -/
theorem bankIn_pending_setBank {t : TableStore} {id : BankId} {b : Bank}
    (hb : b.state = .pending) (hother : (bankOf t (otherBank id)).state ≠ .pending) :
    bankIn (setBank id b t) .pending = some id := by
  unfold bankIn
  cases id with
  | x => exact if_pos hb
  | y => exact (if_neg hother).trans (if_pos hb)

theorem bankOf_setBank (id : BankId) (b : Bank) (t : TableStore) : bankOf (setBank id b t) id = b := by
  cases id <;> rfl

theorem bankOf_setBank_other (id : BankId) (b : Bank) (t : TableStore) :
    bankOf (setBank id b t) (otherBank id) = bankOf t (otherBank id) := by
  cases id <;> rfl

theorem bankDue_iff {s : State} {b : Bank} : bankDue s b = true ↔ dueNow b.activation s.clock := by
  simp [bankDue, dueNow, and_assoc]

/-- The activation of a bank (R168). -/
theorem retireBank_eq (b : Bank) : retireBank b = bankRetired b := by
  unfold retireBank bankRetired
  by_cases h : b.state = .active <;> simp [h]

/-- The Table Store after the activation of a bank (R168). -/
def activatedStore (id : BankId) (t : TableStore) : TableStore :=
  { setBank (otherBank id) (bankRetired (bankOf t (otherBank id)))
      (setBank id { bankOf t id with state := .active } t) with
    params := some (paramsOf (bankOf t id)) }

theorem activatedStore_banks (id : BankId) (t : TableStore) :
    bankOf (activatedStore id t) id = { bankOf t id with state := .active } ∧
      bankOf (activatedStore id t) (otherBank id) = bankRetired (bankOf t (otherBank id)) ∧
      (activatedStore id t).params = some (paramsOf (bankOf t id)) ∧
      (activatedStore id t).setup = t.setup := by
  cases id <;> exact ⟨rfl, rfl, rfl, rfl⟩

theorem activateBank_eq (id : BankId) (s : State) :
    activateBank id s = purgeSightings { s with store := activatedStore id s.store } := by
  have hstore : ∀ t : TableStore, { setBank (otherBank id)
      (retireBank (bankOf (setBank id { bankOf t id with state := .active } t) (otherBank id)))
      (setBank id { bankOf t id with state := .active } t) with
        params := some (paramsOf (bankOf t id)) } = activatedStore id t := by
    intro t
    rw [retireBank_eq, bankOf_setBank_other]
    rfl
  unfold activateBank
  rw [← hstore]
  rfl

theorem acceptFare_bad {s : State} {l : Loading}
    (h : fareImageGood (bankOf s.store l.bank).image = false) :
    acceptFare l s = failLoad .tableInvalid s := by
  unfold acceptFare
  dsimp only
  rw [h]
  rfl

/-- The bank of a FARE image that passes, PENDING with the table's version and activation (R165). -/
def barePending (l : Loading) (s : State) : State :=
  let table := parseFareTable (bankOf s.store l.bank).image
  { s with
    store := setBank l.bank
      { bankOf s.store l.bank with
        state := .pending, version := table.version, activation := table.activation } s.store }

theorem acceptFare_good {s : State} {l : Loading}
    (h : fareImageGood (bankOf s.store l.bank).image = true) :
    acceptFare l s = loadDone (activateIfDue (barePending l s)) := by
  unfold acceptFare
  dsimp only
  rw [h]
  rfl

theorem activateIfDue_pending {s : State} {id : BankId} (h : bankIn s.store .pending = some id) :
    activateIfDue s = if bankDue s (bankOf s.store id) then activateBank id s else s := by
  unfold activateIfDue
  rw [h]

theorem acceptFull_bad {s : State} (h : parseFull s.hot.image = none) :
    acceptFull s = failLoad .tableInvalid s := by
  unfold acceptFull
  rw [h]

theorem acceptFull_good {s : State} {es : List HotEntry} (h : parseFull s.hot.image = some es) :
    acceptFull s =
      loadDone { s with hot := swapBanks (imageHalf s.hot.image 0) (setShadow es s.hot) } := by
  unfold acceptFull
  rw [h]
  rfl

theorem judgeDelta_bad {s : State} {l : Loading} (h : parseDelta s.hot.image = none) :
    judgeDelta l s = failLoad .tableInvalid s := by
  unfold judgeDelta
  rw [h]

theorem judgeDelta_ops {s : State} {l : Loading} {ops : List DeltaOp}
    (h : parseDelta s.hot.image = some ops) :
    judgeDelta l s =
      if imageHalf s.hot.image 0 = s.hot.version then
        if ops.isEmpty then acceptDelta ops s else askRead l (.room 0) s
      else failLoad .versionMismatch s := by
  unfold judgeDelta
  rw [h]

/-- A delta accepted stands in the Hotlist Store (R115). -/
def deltaPresent (ops : List DeltaOp) (h : Hotlist) : Hotlist :=
  { h with
    deltaCond := .present, deltaOps := ops, deltaBase := imageHalf h.image 0
    deltaNew := imageHalf h.image 2, image := [] }

/-- A merge start empties the shadow, and leaves the rest but for the Merge Engine's items (R116). -/
theorem startMerge_eq (h : Hotlist) :
    startMerge h =
      { h with
        bank0 := (setShadow [] h).bank0, bank1 := (setShadow [] h).bank1
        shadow := .mergingInto, merge := .merging
        mergeEntries := activeEntries h, mergeOps := sortOps h.deltaOps } := by
  unfold startMerge
  rw [setShadow_eq]

/-- A piece of the image joins what the ring engine has read (R185). -/
theorem feedTableCode_eq {s : State} {key : Key} {read piece : List Byte}
    (h : s.ringEngine = some (.tableCode key read)) :
    feedTableCode piece s = { s with ringEngine := some (.tableCode key (read ++ piece)) } := by
  unfold feedTableCode
  rw [h]

/-- Settles O27: the table code's reads, then the contents by the kind of the load. -/
theorem loaderReadGoesThroughTheImage : Obligations.LoaderReadGoesThroughTheImage := by
  intro l n s hp hg hl served next asks fails finished starts
  have hexec : ∀ t, loaderReads l (endGrant s) = t → next t := by
    rintro t rfl
    exact exec_loaderRead hp hg hl
  have hfails : ∀ code, loaderReads l (endGrant s) = failLoad code (endGrant s) → fails code :=
    fun code h => hexec _ (h.trans (failLoad_eq (s := endGrant s) code hl))
  have hdone : loadDone (endGrant s) = finished := loadDone_eq _
  have hstarts : ∀ ops, loaderReads l (endGrant s) = acceptDelta ops (endGrant s) → starts ops := by
    intro ops h
    show (if _ then _ else _)
    split
    next hroom =>
      have haccept : acceptDelta ops (endGrant s) =
          { finished with hot := startMerge (deltaPresent ops s.hot) } :=
        (if_pos hroom).trans (loadDone_eq _)
      obtain ⟨hperm, hsorted⟩ := sortOps_sorted ops
      refine ⟨_, hexec _ (h.trans haccept), ?_⟩
      have hhot := startMerge_eq (deltaPresent ops s.hot)
      have hshadow : shadowEntries (startMerge (deltaPresent ops s.hot)) = [] :=
        shadowEntries_setShadow [] (deltaPresent ops s.hot)
      have hactive : activeEntries (startMerge (deltaPresent ops s.hot)) = activeEntries s.hot :=
        activeEntries_setShadow [] (deltaPresent ops s.hot)
      refine ⟨?_, ?_, ?_, ?_, rfl, rfl, rfl, hperm, hsorted, hshadow, hactive, ?_, ?_, ?_, rfl⟩ <;>
        exact (congrArg _ hhot).trans rfl
    next hroom => exact hfails _ (h.trans (if_neg hroom))
  refine ⟨fun key read hphase hring => ⟨fun hmore => hexec _ ?_, fun hlast => hexec _ ?_⟩,
    fun hphase hmore => hexec _ ?_, fun hkind hphase hlast hother => ?_,
    fun hkind hphase hlast => ?_, fun hkind hphase hlast => ?_,
    fun ops hkind hphase hops => ⟨fun hmore => hexec _ ?_, fun hlast => hstarts _ ?_⟩⟩
  · refine (loaderReads_code (s := endGrant s) hphase).trans ((if_neg (Nat.not_le.mpr hmore)).trans ?_)
    rw [feedTableCode_eq (show (endGrant s).ringEngine = _ from hring)]
    rfl
  · refine (loaderReads_code (s := endGrant s) hphase).trans ((if_pos hlast).trans ?_)
    rw [feedTableCode_eq (show (endGrant s).ringEngine = _ from hring)]
    rfl
  · exact (loaderReads_contents hphase).trans (if_neg (Nat.not_le.mpr hmore))
  · intro image table loaded
    have hjudged : loaderReads l (endGrant s) = acceptFare l (endGrant s) := by
      refine (loaderReads_contents (s := endGrant s) hphase).trans ((if_pos hlast).trans ?_)
      unfold judgeContents
      rw [hkind]
    have hgoes : fareImageGood image = true → loaderReads l (endGrant s) =
        loadDone (if bankDue (barePending l (endGrant s)) (loaded .pending) then
          activateBank l.bank (barePending l (endGrant s)) else barePending l (endGrant s)) := by
      intro hgood
      have hpending : bankIn (barePending l (endGrant s)).store .pending = some l.bank :=
        bankIn_pending_setBank rfl hother
      rw [hjudged, acceptFare_good (s := endGrant s) hgood, activateIfDue_pending hpending,
        show bankOf (barePending l (endGrant s)).store l.bank = loaded .pending from bankOf_setBank _ _ _]
    refine ⟨fun hbad => hfails _ (hjudged.trans (acceptFare_bad (s := endGrant s) hbad)),
      fun hgood hnot => hexec _ ?_, fun hgood hdue => ?_⟩
    · rw [hgoes hgood, if_neg fun h => hnot (bankDue_iff.mp h), loadDone_eq]
      rfl
    · have hactive := hgoes hgood
      rw [if_pos (bankDue_iff.mpr hdue), loadDone_eq] at hactive
      obtain ⟨hbank, hbankOther, hparams, hsetup⟩ :=
        activatedStore_banks l.bank (barePending l (endGrant s)).store
      have hstate := activateBank_eq l.bank (barePending l (endGrant s))
      have hbare : bankOf (barePending l (endGrant s)).store l.bank = loaded .pending :=
        bankOf_setBank _ _ _
      have hold : bankOf (barePending l (endGrant s)).store (otherBank l.bank) =
          bankOf s.store (otherBank l.bank) := bankOf_setBank_other _ _ _
      have hkept : (barePending l (endGrant s)).store.setup = s.store.setup := setBank_setup _ _ _
      rw [hbare] at hbank hparams
      rw [hold] at hbankOther
      refine ⟨_, hexec _ hactive, ?_⟩
      rw [hstate]
      exact ⟨hbank, hbankOther, hparams, hsetup.trans hkept, rfl, rfl⟩
  · have hjudged : loaderReads l (endGrant s) = acceptFull (endGrant s) := by
      refine (loaderReads_contents (s := endGrant s) hphase).trans ((if_pos hlast).trans ?_)
      unfold judgeContents
      rw [hkind]
    refine ⟨fun hbad => hfails _ (hjudged.trans (acceptFull_bad (s := endGrant s) hbad)),
      fun es hes => ?_⟩
    have haccept := (hjudged.trans (acceptFull_good (s := endGrant s) hes)).trans (loadDone_eq _)
    refine ⟨_, hexec _ haccept, ?_⟩
    obtain ⟨ha, hs, hv, hf, hab, hops, hi, hlist, hfull, -⟩ :=
      swapBanks_swapped (imageHalf s.hot.image 0) (setShadow es s.hot)
    rw [shadowEntries_setShadow] at ha hlist
    rw [activeEntries_setShadow] at hs
    have hmerge : (setShadow es s.hot).merge = s.hot.merge := by
      rw [setShadow_eq]
    have hlocal : (setShadow es s.hot).localList = s.hot.localList := by
      rw [setShadow_eq]
    have hlocalFull : (setShadow es s.hot).localFull = s.hot.localFull := by
      rw [setShadow_eq]
    rw [hlocal] at hlist
    rw [hlocalFull] at hfull
    exact ⟨ha, hs, hv, hf, hab, hops, hi, hmerge, hlist, hfull, rfl⟩
  · have hjudged : loaderReads l (endGrant s) = judgeDelta l (endGrant s) := by
      refine (loaderReads_contents (s := endGrant s) hphase).trans ((if_pos hlast).trans ?_)
      unfold judgeContents
      rw [hkind]
    refine ⟨fun hbad => hfails _ (hjudged.trans (judgeDelta_bad (s := endGrant s) hbad)),
      fun ops hops => ?_⟩
    have hparsed := hjudged.trans (judgeDelta_ops (s := endGrant s) hops)
    refine ⟨fun hbase => hfails _ (hparsed.trans (if_neg hbase)),
      fun hbase hsome => hexec _ (hparsed.trans ((if_pos hbase).trans (if_neg ?_))),
      fun hbase hnone => hstarts _ (hparsed.trans ((if_pos hbase).trans (if_pos ?_)))⟩
    · simpa using hsome
    · simpa using hnone
  · exact (loaderReads_room (s := endGrant s) hphase hops).trans (if_neg (Nat.not_le.mpr hmore))
  · exact (loaderReads_room (s := endGrant s) hphase hops).trans (if_pos hlast)

end Sys2Proof.Machine

/-! ## Sightings from the ring (chapter 5) -/

namespace Sys2Proof.Machine

/-- A sighting received goes on when it is for all gates, and is then taken (R92, R151). -/
theorem exec_sightingArrival {f : RingFrame} {x : Sighting} {s : State} (hp : s.power = .running)
    (hr : receives s f = true) (hs : strips s f = false) (ht : takesSighting s f = true)
    (hx : parseSighting f = some x) :
    exec (.sightingArrival f) s =
      .next (settle (arriveSighting x { s with ring := ringPassing f s.ring })) := by
  refine exec_settles (f := receiveSighting f) rfl hp ?_
  unfold receiveSighting
  rw [hr, hs, ht, hx, forwardIfAll_ring]
  rfl

/-- A sighting that is inconsistent or outlived leaves what is live of the table (R90, R92). -/
theorem arriveSighting_dropped {x : Sighting} {s : State}
    (h : consistent x = false ∨ outlived s x = true) : arriveSighting x s = purgeSightings s := by
  refine if_neg fun hgood => ?_
  obtain ⟨hc, ho⟩ := Bool.and_eq_true_iff.mp hgood
  obtain h | h := h
  · exact Bool.false_ne_true (h.symm.trans hc)
  · exact Bool.false_ne_true ((Bool.not_eq_true' _ |>.mp ho).symm.trans h)

/-- A sighting taken into the table is judged against side A and then against side B, after a bystander's
action (R99, R101, log 20). -/
theorem arriveSighting_of {x : Sighting} {s : State} {table : List SightEntry}
    {rule : Option FindingReason} (hc : consistent x = true) (ho : outlived s x = false)
    (ht : TableTakes (Meets x) x (liveEntries s s.sightings) table rule) :
    arriveSighting x s =
      judgeSide .b x rule (judgeSide .a x rule (bystanding x rule { s with sightings := table })) := by
  have ht' : TableTakes (Meets x) x (purgeSightings s).sightings table rule := ht
  have hgood : (consistent x && !outlived (purgeSightings s) x) = true := by
    rw [hc, show outlived (purgeSightings s) x = outlived s x from rfl, ho]
    rfl
  refine (if_pos hgood).trans ?_
  rw [applySighting_of (fun _ _ _ h => arrivalOn_of h) ht']
  dsimp only
  rw [show anyInFlight (purgeSightings s) x.uid =
    anyInFlight { purgeSightings s with sightings := table } x.uid from rfl]
  cases hbusy : anyInFlight { purgeSightings s with sightings := table } x.uid with
  | true =>
    rw [bystanding_busy (s := { s with sightings := table }) hbusy]
    simp only [bystander, Bool.not_true, Bool.and_false, Bool.false_eq_true, if_false]
    rfl
  | false =>
    obtain ⟨ha, hb⟩ := Bool.or_eq_false_iff.mp hbusy
    have ha' := (bystanding_inFlight x rule { s with sightings := table } .a x.uid).trans ha
    have hb' := (bystanding_inFlight x rule { s with sightings := table } .b x.uid).trans hb
    rw [judgeSide_idle ha, judgeSide_idle hb, judgeSide_idle ha', judgeSide_idle hb', ← bystander_eq,
      show anyInFlight { s with sightings := table } x.uid = false from hbusy]
    rfl

/-- With no transaction of this gate in flight for its UID, a sighting leaves the table and, where its rule
gave a clone action, the UID offered (R101). -/
theorem arriveSighting_new {x : Sighting} {s : State} {table : List SightEntry}
    {rule : Option FindingReason} (hc : consistent x = true) (ho : outlived s x = false)
    (ha : inFlight s .a x.uid = false) (hb : inFlight s .b x.uid = false)
    (ht : TableTakes (Meets x) x (liveEntries s s.sightings) table rule) :
    arriveSighting x s =
      { s with
        sightings := table, hot := if rule = none then s.hot else uidOffered x.uid s } := by
  have ha' := (bystanding_inFlight x rule { s with sightings := table } .a x.uid).trans ha
  have hb' := (bystanding_inFlight x rule { s with sightings := table } .b x.uid).trans hb
  rw [arriveSighting_of hc ho ht, judgeSide_idle ha', judgeSide_idle hb']
  unfold bystanding
  cases rule with
  | none => rfl
  | some reason => exact if_pos ⟨by simp, ha, hb⟩

/-- Settles O29. -/
theorem sightingOfANewUid : Obligations.SightingOfANewUid := by
  intro f x s hp hr hs htakes hx ha hb live new leaves
  have hexec := exec_sightingArrival hp hr hs htakes hx
  have hleaves : ∀ {table rule hot}, consistent x = true → outlived s x = false →
      TableTakes (Meets x) x live table rule →
      (if rule = none then s.hot else uidOffered x.uid s) = hot → leaves table hot := by
    rintro table rule _ hc ho ht rfl
    show exec _ _ = _
    rw [hexec, arriveSighting_new (s := { s with ring := ringPassing f s.ring }) hc ho ha hb ht]
    rfl
  refine ⟨fun hbad => ?_, fun hc ho => ⟨fun hnone => ⟨fun hroom => ?_,
    fun before o after hlive hfull hpin hbefore hafter => ?_⟩, fun e he => ?_⟩⟩
  · show exec _ _ = _
    rw [hexec, arriveSighting_dropped (s := { s with ring := ringPassing f s.ring }) hbad]
    rfl
  · exact hleaves hc ho (.new hnone hroom) rfl
  · exact hleaves hc ho (.evicted before o after hnone (Nat.le_of_eq hfull.symm) hlive hpin hbefore hafter) rfl
  · intro entry taken
    have hentry : ∀ {y reason hot}, Meets x e y reason →
        (if reason = none then s.hot else uidOffered x.uid s) = hot → entry y hot :=
      fun hmeets hhot => hleaves hc ho (.standing e _ _ he hmeets) hhot
    refine ⟨fun hsame hpin => hentry (.sameSource hsame hpin) rfl, fun hdiffers =>
      ⟨fun hintent => ⟨fun hstanding => ?_, fun hkind => ?_, fun hkind => ?_⟩,
        fun hother => ⟨fun hbehind => ?_, fun hahead => ?_⟩⟩⟩
    · split
      next hlt => exact hentry (.contestWon hdiffers hintent hstanding hlt) rfl
      next hge => exact hentry (.contestKept hdiffers hintent hstanding (Nat.not_lt.mp hge)) rfl
    · have hstate : stateTc e.sighting = e.sighting.result := if_neg (by
        rintro h
        simp [h] at hkind)
      have hnot : e.sighting.kind ≠ .intent := by
        rintro h
        simp [h] at hkind
      split
      next hlt => exact hentry (.intentBehind hdiffers hintent hnot (hstate.symm ▸ hlt)) rfl
      next hge =>
        exact hentry (.intentAhead hdiffers hintent hnot (hstate.symm ▸ Nat.not_lt.mp hge)) rfl
    · have hstate : stateTc e.sighting = e.sighting.base := if_pos hkind
      have hnot : e.sighting.kind ≠ .intent := by simp [hkind]
      split
      next hlt => exact hentry (.intentBehind hdiffers hintent hnot (hstate.symm ▸ hlt)) rfl
      next hge =>
        exact hentry (.intentAhead hdiffers hintent hnot (hstate.symm ▸ Nat.not_lt.mp hge)) rfl
    · exact hentry (.stateBehind hdiffers hother hbehind) rfl
    · split
      next hdouble =>
        obtain ⟨hcommit, hreuse, hcommit', hreuse', hsource, hresult⟩ := hdouble
        exact hentry (.doubleReuse hcommit hreuse hcommit' hreuse' hsource hresult) rfl
      next hdouble => exact hentry (.stateAhead hdiffers hother hahead hdouble) rfl

/-! ### A sighting for a transaction in flight (R97, R99 to R101) -/

/-- Settles O30: the foreign sighting, the UNUSED of a pass timer's expiry, and the insertion queue. -/
theorem foreignCommitRefusesTheClaim : Obligations.ForeignCommitRefusesTheClaim := by
  refine ⟨fun f x s hp hr hs htakes hx hc ho => ?_, fun g left dir s hp htimer hstate hqueue => ?_,
    fun m r => ⟨joins_joinInsertion m r, joinInsertion_insertion m r⟩⟩
  · obtain ⟨table, rule, ht⟩ : ∃ table rule,
        TableTakes (Meets x) x (liveEntries s s.sightings) table rule :=
      ⟨_, _, (takes_applySighting (s := purgeSightings s) (fun _ _ _ h => arrivalOn_of h)
        (meets_arrivalOn x)).1⟩
    refine ⟨table, rule, _, _, ht, sideJudged_iff.mpr rfl, sideJudged_iff.mpr rfl, ?_⟩
    rw [exec_sightingArrival hp hr hs htakes hx,
      arriveSighting_of (s := { s with ring := ringPassing f s.ring }) hc ho ht]
  · have hexpires : passTimerEnds s =
        giveUpGrant false { s with gate := { s.gate with queue := [], passTimer := .stopped } } g := by
      unfold passTimerEnds passTimerRuns passExpiry
      rw [htimer, hqueue, hstate]
      rfl
    have hgiven := (giveUpGrant_iff (emergency := false) (g := g)
      (v := { s with gate := { s.gate with queue := [], passTimer := .stopped } })).mpr rfl
    exact ⟨_, exec_settles (f := passTimerEnds) rfl hp hexpires, hgiven⟩

/-- Settles O31. -/
theorem cloneNoticeContestsTheEntry : Obligations.CloneNoticeContestsTheEntry := by
  intro f u s hp hr hs htakes hu hfree hnone
  refine exec_settles (f := receiveNotice f) rfl hp ?_
  have hoffered : uidOffered u s =
      if u ∈ s.hot.localList ∨ ∃ e ∈ activeEntries s.hot, e.uid = u then s.hot
      else if s.hot.localList.length < 256 then
        { s.hot with localList := s.hot.localList ++ [u] }
      else { s.hot with localFull := true } := if_neg (by simp [hfree, hnone])
  unfold receiveNotice
  rw [hr, hs, htakes, hu, forwardIfAll_ring, ← hoffered]
  show contestEntry u (offerLocal u _) = _
  rw [offerLocal_eq]
  rfl

end Sys2Proof.Machine

/-! ## Line time (chapters 4, 8 and 9) -/

namespace Sys2Proof.Machine

/-! ### Deadlines (R70, R75) -/

theorem insertByDeadline_perm (c : Context) (l : List Context) :
    (insertByDeadline c l).Perm (c :: l) := by
  induction l with
  | nil => rfl
  | cons d rest ih =>
    unfold insertByDeadline
    split
    · rfl
    · exact (ih.cons d).trans (List.Perm.swap c d rest)

theorem insertByDeadline_sorted (c : Context) {l : List Context}
    (h : l.Pairwise (fun a b => a.deadline ≤ b.deadline)) :
    (insertByDeadline c l).Pairwise (fun a b => a.deadline ≤ b.deadline) := by
  induction l with
  | nil => simp [insertByDeadline]
  | cons d rest ih =>
    obtain ⟨hd, hrest⟩ := List.pairwise_cons.mp h
    unfold insertByDeadline
    split
    · next hlt =>
      refine List.pairwise_cons.mpr ⟨fun x hx => ?_, h⟩
      obtain rfl | hx := List.mem_cons.mp hx
      · exact Nat.le_of_lt hlt
      · exact Nat.le_trans (Nat.le_of_lt hlt) (hd x hx)
    · next hge =>
      refine List.pairwise_cons.mpr ⟨fun x hx => ?_, ih hrest⟩
      obtain rfl | hx := List.mem_cons.mp ((insertByDeadline_perm c rest).mem_iff.mp hx)
      · exact Nat.not_lt.mp hge
      · exact hd x hx

theorem insertByDeadline_before {c d : Context} {rest : List Context} (h : c.deadline < d.deadline) :
    insertByDeadline c (d :: rest) = c :: d :: rest := if_pos h

theorem insertByDeadline_behind {c d : Context} {rest : List Context} (h : ¬ c.deadline < d.deadline) :
    insertByDeadline c (d :: rest) = d :: insertByDeadline c rest := if_neg h

/-- An earlier deadline stands at the head. -/
theorem insertByDeadline_head {c : Context} {l : List Context} (h : ∀ x ∈ l, c.deadline < x.deadline) :
    insertByDeadline c l = c :: l := by
  cases l with
  | nil => rfl
  | cons d rest => exact if_pos (h d (by simp))

/-- Contexts taken out of a list in the order of deadlines leave the others in theirs. -/
theorem insertByDeadline_filter (p : Context → Bool) (c : Context) {l : List Context}
    (h : l.Pairwise (fun a b => a.deadline ≤ b.deadline)) :
    (insertByDeadline c l).filter p =
      if p c then insertByDeadline c (l.filter p) else l.filter p := by
  induction l with
  | nil => simp [insertByDeadline, List.filter_cons]
  | cons d rest ih =>
    obtain ⟨hd, hrest⟩ := List.pairwise_cons.mp h
    by_cases hlt : c.deadline < d.deadline
    · have hhead : insertByDeadline c ((d :: rest).filter p) = c :: (d :: rest).filter p := by
        refine insertByDeadline_head fun x hx => ?_
        obtain rfl | hx := List.mem_cons.mp (List.mem_filter.mp hx).1
        · exact hlt
        · exact Nat.lt_of_lt_of_le hlt (hd x hx)
      rw [insertByDeadline_before hlt, hhead, List.filter_cons]
    · rw [insertByDeadline_behind hlt, List.filter_cons, ih hrest, List.filter_cons]
      cases p d <;> cases p c <;> simp [insertByDeadline_behind hlt]

/-- The contexts of a table in the order of R70. -/
def byDeadline (l : List Context) : List Context := l.foldl (fun l c => insertByDeadline c l) []


theorem byDeadline_append_singleton (l : List Context) (c : Context) :
    byDeadline (l ++ [c]) = insertByDeadline c (byDeadline l) := by
  simp [byDeadline]

theorem byDeadline_sorted (l : List Context) :
    (byDeadline l).Pairwise (fun a b => a.deadline ≤ b.deadline) := by
  induction l using list_append_induction with
  | nil => exact .nil
  | append_singleton l c ih =>
    rw [byDeadline_append_singleton]
    exact insertByDeadline_sorted c ih

theorem byDeadline_perm (l : List Context) : (byDeadline l).Perm l := by
  induction l using list_append_induction with
  | nil => rfl
  | append_singleton l c ih =>
    rw [byDeadline_append_singleton]
    exact (insertByDeadline_perm c _).trans ((ih.cons c).trans (List.perm_append_singleton c l).symm)

theorem byDeadline_filter (p : Context → Bool) (l : List Context) :
    (byDeadline l).filter p = byDeadline (l.filter p) := by
  induction l using list_append_induction with
  | nil => rfl
  | append_singleton l c ih =>
    rw [byDeadline_append_singleton, insertByDeadline_filter p c (byDeadline_sorted l), ih,
      List.filter_append]
    cases hp : p c
    · simp [hp]
    · simp [hp, byDeadline_append_singleton]

/-- What a context reaching its deadline leaves of the Recovery Table (R75). -/
def deadlineTaken (contexts : List Context) (c : Context) : List Context :=
  if c.holder.isNone then contexts.filter (fun x => x.uid ≠ c.uid)
  else contexts.map (fun x => if x.uid = c.uid then { x with overdue := true } else x)

/-- The contexts that reach their deadline change the Recovery Table and the Journal Queue alone. -/
theorem foldl_reachDeadline (l : List Context) (s : State) :
    l.foldl reachDeadline s =
      { s with
        contexts := l.foldl deadlineTaken s.contexts
        journal := (l.filter (fun c => c.holder.isNone)).foldl
          (fun j c => recordOffered (expiryRecord s c) j) s.journal } := by
  induction l generalizing s with
  | nil => rfl
  | cons c rest ih =>
    rw [List.foldl_cons, List.foldl_cons, ih, List.filter_cons]
    unfold reachDeadline
    cases hc : c.holder.isNone with
    | false =>
      rw [show deadlineTaken s.contexts c = _ from if_neg (by simp [hc])]
      rfl
    | true =>
      rw [if_pos rfl, expireContext_eq, show deadlineTaken s.contexts c = _ from if_pos hc]
      rfl

/-- The Recovery Table after a list of contexts has reached its deadlines, by the UIDs in it (R75). -/
theorem foldl_deadlineTaken (l contexts : List Context) :
    l.foldl deadlineTaken contexts =
      (contexts.filter (fun x => !l.any (fun c => c.holder.isNone && decide (c.uid = x.uid)))).map
        (fun x =>
          if l.any (fun c => !c.holder.isNone && decide (c.uid = x.uid)) then { x with overdue := true }
          else x) := by
  induction l generalizing contexts with
  | nil => exact ((List.map_id' _).trans (List.filter_eq_self.mpr fun _ _ => rfl)).symm
  | cons c rest ih =>
    rw [List.foldl_cons, ih]
    unfold deadlineTaken
    cases hc : c.holder.isNone with
    | true =>
      simp only [if_true, List.any_cons, hc, Bool.true_and, Bool.not_true, Bool.false_and,
        Bool.false_or, List.filter_filter]
      congr 1
      refine List.filter_congr fun x _ => ?_
      rw [Bool.not_or, Bool.and_comm, decide_not, decide_eq_decide.mpr eq_comm]
    | false =>
      simp only [Bool.false_eq_true, if_false, List.any_cons, hc, Bool.false_and, Bool.not_false,
        Bool.true_and, Bool.false_or, List.filter_map, List.map_map]
      have huid : ∀ x : Context,
          (if x.uid = c.uid then { x with overdue := true } else x).uid = x.uid := fun x => by
        split <;> rfl
      congr 1
      · funext x
        simp only [Function.comp_apply, huid]
        by_cases hx : x.uid = c.uid
        · simp [hx]
        · have hx' : c.uid ≠ x.uid := Ne.symm hx
          simp [hx, hx']
      · refine List.filter_congr fun x _ => ?_
        simp only [Function.comp_apply, huid]

/-! ### Line time moved (R75, R90, R160, R161, R168) -/

/-- Two elements of one key, where each key stands once, are the same. -/
theorem eq_of_nodup_map {α β : Type} {key : α → β} {l : List α} (h : (l.map key).Nodup) {a b : α}
    (ha : a ∈ l) (hb : b ∈ l) (he : key a = key b) : a = b := by
  induction l with
  | nil => cases ha
  | cons c l ih =>
    obtain ⟨hc, hl⟩ := List.nodup_cons.mp h
    obtain rfl | hal := List.mem_cons.mp ha
    · obtain rfl | hbl := List.mem_cons.mp hb
      · rfl
      · exact absurd (List.mem_map.mpr ⟨b, hbl, he.symm⟩) hc
    · obtain rfl | hbl := List.mem_cons.mp hb
      · exact absurd (List.mem_map.mpr ⟨a, hal, he⟩) hc
      · exact ih hl hal hbl

/-- The contexts that line time has reached, with those of them that no transaction holds (R75). -/
theorem dueContexts_eq (s : State) :
    dueContexts s = byDeadline (s.contexts.filter (fun c => decide (c.deadline ≤ s.clock.lineTime))) :=
  rfl

theorem dueContexts_unheld (s : State) :
    (dueContexts s).filter (fun c => c.holder.isNone) =
      byDeadline
        (s.contexts.filter
          (fun c => decide (c.deadline ≤ s.clock.lineTime) && c.holder.isNone)) := by
  rw [dueContexts_eq, byDeadline_filter, List.filter_filter]
  congr 1
  exact List.filter_congr fun c _ => Bool.and_comm _ _

/-- A context is the one of its UID. -/
theorem any_due {s : State} (hone : (s.contexts.map Context.uid).Nodup) {x : Context}
    (hx : x ∈ s.contexts) (p : Context → Bool) :
    (dueContexts s).any (fun c => p c && decide (c.uid = x.uid)) =
      (p x && decide (x.deadline ≤ s.clock.lineTime)) := by
  have hmem : ∀ c, c ∈ dueContexts s ↔ c ∈ s.contexts ∧ c.deadline ≤ s.clock.lineTime := by
    intro c
    rw [dueContexts_eq, (byDeadline_perm _).mem_iff]
    simp
  rw [Bool.eq_iff_iff]
  simp only [List.any_eq_true, Bool.and_eq_true, decide_eq_true_eq]
  constructor
  · rintro ⟨c, hc, hp, huid⟩
    obtain ⟨hcmem, hdue⟩ := (hmem c).mp hc
    obtain rfl := eq_of_nodup_map hone hcmem hx huid
    exact ⟨hp, hdue⟩
  · rintro ⟨hp, hdue⟩
    exact ⟨x, (hmem x).mpr ⟨hx, hdue⟩, hp, rfl⟩

/-- The Recovery Table after its deadlines: the unheld contexts that are due are gone, the held ones have
their overdue mark (R75). -/
theorem dueContexts_taken {s : State} (hone : (s.contexts.map Context.uid).Nodup) :
    (dueContexts s).foldl deadlineTaken s.contexts =
      (s.contexts.filter
          (fun c => !(decide (c.deadline ≤ s.clock.lineTime) && c.holder.isNone))).map
        (fun c => if c.deadline ≤ s.clock.lineTime then { c with overdue := true } else c) := by
  rw [foldl_deadlineTaken]
  have hkept : s.contexts.filter
      (fun x => !(dueContexts s).any (fun c => c.holder.isNone && decide (c.uid = x.uid))) =
      s.contexts.filter
        (fun c => !(decide (c.deadline ≤ s.clock.lineTime) && c.holder.isNone)) := by
    refine List.filter_congr fun x hx => ?_
    rw [any_due hone hx, Bool.and_comm]
  rw [hkept]
  refine List.map_congr_left fun x hx => ?_
  obtain ⟨hx, hstays⟩ := List.mem_filter.mp hx
  rw [any_due hone hx (fun c => !c.holder.isNone)]
  by_cases hdue : x.deadline ≤ s.clock.lineTime
  · have hheld : x.holder.isNone = false := by simpa [hdue] using hstays
    simp [hdue, hheld]
  · simp [hdue]

/-- The activation test leaves the state, or activates the bank that is due (R168). -/
theorem activateIfDue_cases (s : State) :
    (activateIfDue s = s ∧ ∀ id, bankIn s.store .pending = some id →
      bankDue s (bankOf s.store id) = false) ∨
    ∃ id, bankIn s.store .pending = some id ∧ bankDue s (bankOf s.store id) = true ∧
      activateIfDue s = purgeSightings { s with store := activatedStore id s.store } := by
  unfold activateIfDue
  cases hpending : bankIn s.store .pending with
  | none => exact .inl ⟨rfl, by simp⟩
  | some id =>
    cases hdue : bankDue s (bankOf s.store id) with
    | false =>
      refine .inl ⟨by simp [hdue], fun id' h => ?_⟩
      cases h
      exact hdue
    | true => exact .inr ⟨id, rfl, hdue, (if_pos hdue).trans (activateBank_eq id s)⟩

/-- The Sighting Table is rid twice of what is past its period as it is once (R90). -/
theorem liveEntries_twice (s : State) (table : List SightEntry) :
    liveEntries s (liveEntries s table) = liveEntries s table := by
  unfold liveEntries
  rw [List.filter_filter]
  exact List.filter_congr fun _ _ => Bool.and_self _

/-- What line time that has moved leaves: the Table Store by the activation test, and by the deadlines and
periods the Recovery Table, the Journal Queue and the Sighting Table. -/
theorem lineTimeMoved_eq (s : State) :
    lineTimeMoved s =
      { s with
        store := (activateIfDue s).store
        contexts := (dueContexts s).foldl deadlineTaken s.contexts
        journal := ((dueContexts s).filter (fun c => c.holder.isNone)).foldl
          (fun j c => recordOffered (expiryRecord { s with store := (activateIfDue s).store } c) j)
          s.journal
        sightings := liveEntries { s with store := (activateIfDue s).store } s.sightings } := by
  unfold lineTimeMoved takeDeadlines
  obtain ⟨hsame, -⟩ | ⟨id, -, -, hactive⟩ := activateIfDue_cases s
  · rw [hsame, foldl_reachDeadline]
    rfl
  · rw [hactive, foldl_reachDeadline]
    show ({ s with
      store := activatedStore id s.store
      contexts := (dueContexts s).foldl deadlineTaken s.contexts
      journal := ((dueContexts s).filter (fun c => c.holder.isNone)).foldl
        (fun j c => recordOffered (expiryRecord { s with store := activatedStore id s.store } c) j)
        s.journal
      sightings := liveEntries { s with store := activatedStore id s.store }
        (liveEntries { s with store := activatedStore id s.store } s.sightings) } : State) = _
    rw [liveEntries_twice]
    rfl

theorem activateIfDue_setup (s : State) : (activateIfDue s).store.setup = s.store.setup := by
  obtain ⟨hsame, -⟩ | ⟨id, -, -, hactive⟩ := activateIfDue_cases s
  · rw [hsame]
  · rw [hactive]
    exact (activatedStore_banks id s.store).2.2.2

/-- A clock that is set and not holding makes a bank due by its activation alone (R168). -/
theorem bankDue_running {s : State} {b : Bank} (hset : s.clock.isSet = true)
    (hhold : s.clock.hold = false) :
    bankDue s b = decide (b.activation ≤ s.clock.lineTime / 60) := by
  simp [bankDue, hset, hhold]

/-- Line time moved from `s` to `m`, whose other items are those of `s`, does what R75, R90 and R168 say. -/
theorem lineTimeMoved_moved {s m t : State} (hset : m.clock.isSet = true)
    (hhold : m.clock.hold = false) (hstore : m.store = s.store) (hcontexts : m.contexts = s.contexts)
    (hjournal : m.journal = s.journal) (hsightings : m.sightings = s.sightings)
    (hgate : m.ring.gateNo = s.ring.gateNo) (ht : t = settle (lineTimeMoved m)) :
    t.clock = m.clock ∧ LineTimeMoved s t := by
  have hmoved := lineTimeMoved_eq m
  have hclock : t.clock = m.clock := by rw [ht, settle_clock, hmoved]
  have htstore : t.store = (activateIfDue m).store := by rw [ht, settle_store, hmoved]
  have htjournal : t.journal = ((dueContexts m).filter (fun c => c.holder.isNone)).foldl
      (fun j c => recordOffered (expiryRecord { s with clock := t.clock } c) j) s.journal := by
    have hrecord : ∀ c, expiryRecord { m with store := (activateIfDue m).store } c =
        expiryRecord { s with clock := t.clock } c := by
      intro c
      unfold expiryRecord
      dsimp only
      rw [activateIfDue_setup, hstore, hgate, hclock]
    have hoffered : t.journal = ((dueContexts m).filter (fun c => c.holder.isNone)).foldl
        (fun j c => recordOffered (expiryRecord { m with store := (activateIfDue m).store } c) j)
        m.journal := by
      rw [ht, settle_journal, hmoved]
    rw [hoffered]
    simp only [hrecord]
    rw [hjournal]
  have hgone : (dueContexts m).filter (fun c => c.holder.isNone) =
      byDeadline (s.contexts.filter
        (fun c => decide (c.deadline ≤ t.clock.lineTime) && c.holder.isNone)) := by
    rw [dueContexts_unheld, hcontexts, hclock]
  refine ⟨hclock, fun hnone => ?_, fun id hpending hnot => ?_, fun id hpending hdue => ?_,
    fun hone => ?_, ⟨fun hg => ?_, fun c hg => ?_, fun c₁ c₂ hg => ?_⟩, ?_, ?_⟩
  · rw [htstore, ← hstore]
    obtain ⟨hsame, -⟩ | ⟨id, hpending, -, -⟩ := activateIfDue_cases m
    · rw [hsame]
    · rw [hstore, hnone] at hpending
      cases hpending
  · rw [htstore, ← hstore]
    obtain ⟨hsame, -⟩ | ⟨id', hpending', hdue, -⟩ := activateIfDue_cases m
    · rw [hsame]
    · rw [hstore, hpending] at hpending'
      cases hpending'
      rw [bankDue_running hset hhold, hstore, ← hclock] at hdue
      exact absurd (of_decide_eq_true hdue) (Nat.not_le.mpr hnot)
  · obtain ⟨-, hnot⟩ | ⟨id', hpending', -, hactive⟩ := activateIfDue_cases m
    · have hfalse := hnot id (by rw [hstore]; exact hpending)
      rw [bankDue_running hset hhold, hstore, ← hclock] at hfalse
      exact absurd hdue (of_decide_eq_false hfalse)
    · rw [hstore, hpending] at hpending'
      cases hpending'
      have hts : t.store = activatedStore id s.store := by
        rw [htstore, hactive, ← hstore]
        rfl
      obtain ⟨hbank, hother, hparams, -⟩ := activatedStore_banks id s.store
      rw [hts]
      exact ⟨hbank, by rw [hparams]; rfl, hother⟩
  · rw [ht, settle_contexts, hmoved]
    show (dueContexts m).foldl deadlineTaken m.contexts = _
    rw [dueContexts_taken (by rw [hcontexts]; exact hone), hcontexts, settle_clock]
  · rw [htjournal, hgone, hg]
    rfl
  · rw [htjournal, hgone, hg]
    rfl
  · rw [htjournal, hgone, hg]
    show List.foldl _ _ (if c₂.deadline < c₁.deadline then [c₂, c₁] else [c₁, c₂]) = _
    split <;> rfl
  · rw [← hsightings]
    have hlive : t.sightings = liveEntries { m with store := t.store } m.sightings := by
      rw [htstore, ht, settle_sightings, hmoved]
    rw [hlive]
    unfold liveEntries outlived periodOf ageOf
    rw [hclock]
  · rw [htstore, activateIfDue_setup, hstore]

/-- Settles O33. -/
theorem lineTimeAdvanceActivatesATable : Obligations.LineTimeAdvanceActivatesATable := by
  intro s hp
  refine ⟨fun hnot => exec_settles (f := advanceLineTime) rfl hp (if_neg ?_), fun hset hhold => ?_⟩
  · obtain h | h := hnot <;> simp [h]
  · have hadvance : advanceLineTime s = lineTimeMoved
        { s with
          clock := { s.clock with lineTime := min (s.clock.lineTime + 1) maxLineTime, phase := 0 } } :=
      if_pos (by simp [hset, hhold])
    have hmoved := lineTimeMoved_eq
      { s with
        clock := { s.clock with lineTime := min (s.clock.lineTime + 1) maxLineTime, phase := 0 } }
    obtain ⟨hclock, htable⟩ := lineTimeMoved_moved (s := s)
      (m := { s with
        clock := { s.clock with lineTime := min (s.clock.lineTime + 1) maxLineTime, phase := 0 } })
      hset hhold rfl rfl rfl rfl rfl rfl
    refine ⟨_, exec_settles (f := advanceLineTime) rfl hp hadvance, hclock, htable, fun hport => ?_,
      ?_, ?_, ?_⟩
    · rw [settle_localList (by rw [hmoved]; exact hport), hmoved]
    · rw [settle_taps, hmoved]
    · rw [settle_keys, hmoved]
    · rw [settle_queue, hmoved]

theorem forwardFrame_eq (f : RingFrame) (s : State) :
    ∃ queue, forwardFrame f s = { s with ring := { s.ring with forward := queue } } := by
  unfold forwardFrame modRing
  by_cases h : s.ring.forward.length < 4
  · exact ⟨_, by simp only [h, if_true]; rfl⟩
  · exact ⟨s.ring.forward, by simp only [h, if_false]⟩

/-- The state at a beacon before the clock takes it: the frame forwarded, the watch restarted and the ring
JOINED (R151, R156). -/
def beaconTaken (queue : List RingFrame) (s : State) : State :=
  { s with ring := { s.ring with forward := queue, watch := some 2000, joined := true } }

/-- Settles O32. -/
theorem beaconSetsOrHoldsTheClock : Obligations.BeaconSetsOrHoldsTheClock := by
  intro f time s hp hr ht hs hf
  obtain ⟨queue, hforward⟩ := forwardFrame_eq f s
  have hbeacon : receiveBeacon f s = clockBeacon time (beaconTaken queue s) := by
    unfold receiveBeacon
    rw [hr, hs, ht, hf, hforward]
    rfl
  have hexec := exec_settles (c := .beacon f) (f := receiveBeacon f) rfl hp hbeacon
  by_cases hback : s.clock.isSet = true ∧ time < s.clock.lineTime
  · have hholds : clockBeacon time (beaconTaken queue s) =
        { beaconTaken queue s with clock := { s.clock with hold := true, phase := 0 } } :=
      if_pos (Bool.and_eq_true_iff.mpr ⟨hback.1, decide_eq_true hback.2⟩)
    rw [hholds] at hexec
    refine ⟨_, hexec, settle_watch _, settle_joined _, ?_, fun _ _ => ?_, fun hforth => ?_,
      settle_keys _, settle_decoder _, settle_loader _, fun hport => settle_localList hport, settle_taps _,
      settle_queue _, settle_sent _⟩
    · rw [settle_clock]
    · rw [settle_clock]
      exact ⟨rfl, rfl, hback.1, rfl, settle_sightings _, settle_contexts _, settle_store _,
        settle_journal _⟩
    · obtain h | h := hforth
      · exact absurd (hback.1.symm.trans h) (by simp)
      · exact absurd hback.2 (Nat.not_lt.mpr h)
  · let m : State :=
      { beaconTaken queue s with
        clock := { s.clock with lineTime := time, isSet := true, hold := false, phase := 0 } }
    have hsets : clockBeacon time (beaconTaken queue s) = lineTimeMoved m :=
      if_neg fun h => hback
        ⟨(Bool.and_eq_true_iff.mp h).1, of_decide_eq_true (Bool.and_eq_true_iff.mp h).2⟩
    rw [hsets] at hexec
    have hmoved := lineTimeMoved_eq m
    obtain ⟨hclock, htable⟩ := lineTimeMoved_moved (s := s) (m := m) rfl rfl rfl rfl rfl rfl rfl rfl
    refine ⟨_, hexec, ?_, ?_, ?_, fun hset hlt => absurd ⟨hset, hlt⟩ hback, fun _ => ?_,
      ?_, ?_, ?_, fun hport => ?_, ?_, ?_, ?_⟩
    · rw [settle_watch, hmoved]
      rfl
    · rw [settle_joined, hmoved]
      rfl
    · rw [hclock]
    · rw [hclock]
      exact ⟨rfl, rfl, rfl, rfl, htable⟩
    · rw [settle_keys, hmoved]
      rfl
    · rw [settle_decoder, hmoved]
      rfl
    · rw [settle_loader, hmoved]
      rfl
    · rw [settle_localList (by rw [hmoved]; exact hport), hmoved]
      rfl
    · rw [settle_taps, hmoved]
      rfl
    · rw [settle_queue, hmoved]
      rfl
    · rw [settle_sent, hmoved]
      rfl

/-! ### Plain timers and the ring's frames (R143, R146 to R156, R194) -/

theorem shows_indicator {s : State} (h : Shows s) (sd : Side) :
    s.gate.indicator.get sd = indicatorOf s sd := by
  cases sd
  · exact h.sideA
  · exact h.sideB

/-- Settles O34. -/
theorem plainTimersExpire : Obligations.PlainTimersExpire := by
  intro sd s hp
  have hstop : exec (.stopTimerExpiry sd) s = .next (settle
      { s with gate := { s.gate with stopTimer := s.gate.stopTimer.set sd none } }) :=
    exec_settles (f := stopTimerEnds sd) rfl hp rfl
  refine ⟨fun hwatch => exec_settles (f := watchExpires) rfl hp (if_pos hwatch),
    fun e rest hsent => exec_settles (f := ageOldest) rfl hp ?_, hstop, fun t ht hfree hout => ?_⟩
  · have hdrop : s.ring.sent.drop 1 = rest := by rw [hsent]; rfl
    rw [← hdrop]
    rfl
  · rw [hstop] at ht
    cases ht
    generalize hm : ({ s with gate := { s.gate with stopTimer := s.gate.stopTimer.set sd none } } : State) =
      m at hfree hout ⊢
    have hstopped : (settle m).gate.stopTimer.get sd = none := by
      rw [settle_stopTimer, ← hm]
      exact Sided.get_set_same _ _ _
    rw [shows_indicator (settle_shows m) sd]
    unfold indicatorOf
    rw [if_neg hfree, if_neg hout, hstopped]

/-- Settles O36. -/
theorem framesPassOrAreDropped : Obligations.FramesPassOrAreDropped := by
  intro f bytes s hp
  refine ⟨exec_settles (f := dropBytes bytes) rfl hp rfl, fun hr hs hnone =>
    exec_settles (f := receivePassing f) rfl hp ?_, fun hr hs htakes hfull =>
    exec_settles (f := dropRequest f) rfl hp ?_⟩
  · unfold receivePassing forwardFrame modRing
    rw [hr, hs, hnone]
    by_cases h : s.ring.forward.length < 4 <;> simp [h]
  · unfold dropRequest
    rw [hr, hs, htakes, decide_eq_true hfull, forwardIfAll_ring]
    rfl

/-- Settles O37. -/
theorem ringOutFrameEndFreesTheLine : Obligations.RingOutFrameEndFreesTheLine := by
  intro x s hp hsending hsent hrestart
  refine exec_settles (f := frameEnds) rfl hp ?_
  unfold frameEnds
  rw [hsending]
  dsimp only
  rw [hrestart]
  show frameLeaves x s = _
  have henters : ∀ e, enterSent e { s.ring with sending := none } =
      { s.ring with sending := none, sent := s.ring.sent ++ [e] } := fun e => if_pos hsent
  unfold frameLeaves modRing
  dsimp only
  rw [henters]
  cases x.origin <;> rfl

theorem takeOwn_record {s : State} {r : JournalRecord} (hi : s.ring.insertion = [])
    (hf : s.ring.filled = []) (hr : offeredRecord s = some r) :
    takeOwn s =
      modRing (fun g => { g with sending := some ⟨journalFrame g.gateNo r, .journal⟩ }) s := by
  unfold takeOwn
  rw [hi]
  dsimp only
  rw [hf]
  dsimp only
  rw [hr]

theorem takeOwn_nothing {s : State} (hi : s.ring.insertion = []) (hf : s.ring.filled = [])
    (hr : offeredRecord s = none) : takeOwn s = s := by
  unfold takeOwn
  rw [hi]
  dsimp only
  rw [hf]
  dsimp only
  rw [hr]

/-- Settles O38: the four sources in their order. -/
theorem ringOutTakesTheFirstSource : Obligations.RingOutTakesTheFirstSource := by
  intro s hidle hrepeater
  have hfree : ¬ (s.ring.sending.isSome || s.ring.repeater) = true := by simp [hidle, hrepeater]
  have hnext : s.ring.forward = [] →
      ringOutTake s = if s.ring.sent.length < 16 then takeOwn s else s := by
    intro hnone
    unfold ringOutTake
    rw [if_neg hfree, hnone]
  refine ⟨fun f rest hforward => ?_, fun hnone hfull => (hnext hnone).trans (if_neg (by omega)),
    fun hnone hroom => ?_⟩
  · unfold ringOutTake
    rw [if_neg hfree, hforward]
    rfl
  · have hown : ringOutTake s = takeOwn s := (hnext hnone).trans (if_pos hroom)
    rw [hown]
    refine ⟨fun m rest hinsertion => ?_, fun hinsertion => ⟨fun f rest hfilled => ?_,
      fun hfilled => ?_⟩⟩
    · unfold takeOwn
      rw [hinsertion]
      rfl
    · unfold takeOwn
      rw [hinsertion, hfilled]
      rfl
    · refine ⟨fun r rest hrecords hopen hjoined => ?_, fun hnothing => ?_⟩
      · have hrecord : offeredRecord s = some r := by
          unfold offeredRecord
          rw [hjoined, hrecords]
          simp [hopen]
        rw [takeOwn_record hinsertion hfilled hrecord]
        rfl
      · have hrecord : offeredRecord s = none := by
          unfold offeredRecord
          obtain h | h | ⟨r, rest, hrecords, hopen⟩ := hnothing
          · rw [h]
            exact ite_self _
          · rw [h]
            rfl
          · rw [hrecords]
            simp [hopen]
        exact takeOwn_nothing hinsertion hfilled hrecord

end Sys2Proof.Machine

/-! ## The lane and the gate (O39 to O44, O35) -/

namespace Sys2Proof.Machine

/-- A lane that takes passages has no alarm. -/
theorem alarm_none_of_open {s : State}
    (h : gateState s = .closed ∨ ∃ dir, gateState s = .opened dir ∨ gateState s = .passing dir) :
    s.gate.alarm = none := by
  cases ha : s.gate.alarm with
  | none => rfl
  | some k =>
    unfold gateState at h
    rw [ha] at h
    split at h
    · simp at h
    split at h <;> simp at h

/-- An alarm raised where none stands. -/
theorem raiseAlarm_eq (k : AlarmKind) {s : State} (h : s.gate.alarm = none) :
    raiseAlarm k s = { s with gate := alarmRaised k s.gate } := by
  unfold raiseAlarm modGate alarmRaised pausedPass
  dsimp only
  rw [h] <;> rfl

/-- FORCED goes over any other alarm. -/
theorem raiseAlarm_forced (s : State) :
    raiseAlarm .forced s = { s with gate := alarmRaised .forced s.gate } := by
  unfold raiseAlarm modGate alarmRaised pausedPass
  dsimp only
  cases s.gate.passTimer <;> cases s.gate.alarm <;> simp

/-- The pass timer started. -/
theorem startPassTimer_eq (s : State) :
    startPassTimer s = { s with gate := { s.gate with passTimer := fullWindow s } } := by
  unfold startPassTimer fullWindow modGate
  cases s.store.params <;> rfl

/-- Settles O39, by the gate state. -/
theorem enterByTheGateState : Obligations.EnterByTheGateState := by
  intro sd s hp gate next
  have henter : ∀ g, laneEnter sd s = { s with gate := g } → next g :=
    fun g h => exec_settles (f := laneEnter sd) rfl hp h
  have hraise : ∀ k : AlarmKind,
      (gateState s = .closed ∨ ∃ dir, gateState s = .opened dir ∨ gateState s = .passing dir) →
      laneEnter sd s = raiseAlarm k (setOccupancy (min (s.gate.occupancy + 1) 2) s) →
      next (alarmRaised k gate) :=
    fun k ho h => henter _ (h.trans (raiseAlarm_eq k (alarm_none_of_open ho)))
  have hother : sd.other ≠ sd := by cases sd <;> simp [Side.other]
  refine ⟨fun h => ?plain, fun ho h2 => ?third, fun hlt => ?_⟩
  case plain =>
    refine henter _ ?_
    unfold laneEnter
    rcases h with h | ⟨k, h⟩
    · simp only [List.mem_cons, List.not_mem_nil, or_false] at h
      rcases h with h | h <;> rw [h] <;> rfl
    · rw [h]; rfl
  case third =>
    refine hraise _ ho ?_
    unfold laneEnter
    rcases ho with h | ⟨dir, h | h⟩ <;> rw [h] <;> unfold enterEffect <;> simp only [h2, if_true]
  have hlow : ¬ 2 ≤ s.gate.occupancy := by omega
  refine ⟨fun h => ?closed, fun h => ?far, fun g rest h hq => ?head, fun g x rest h hq => ?second,
    fun g h hq => ?single⟩
  case closed =>
    refine hraise _ (.inl h) ?_
    unfold laneEnter
    rw [h]
    unfold enterEffect
    rw [if_neg hlow]
  case far =>
    refine hraise _ (.inr ⟨_, h⟩) ?_
    unfold laneEnter
    rcases h with h | h <;> rw [h] <;> exact (if_neg hlow).trans (if_neg hother)
  case head =>
    refine henter _ ?_
    unfold laneEnter
    rw [h]
    refine ((if_neg hlow).trans (if_pos rfl)).trans ?_
    simp [enterHead, modGate, setOccupancy, hq, gate]
  case second =>
    have he : laneEnter sd s =
        if secondCanEnter s.gate.queue then
          enterSecond (setOccupancy (min (s.gate.occupancy + 1) 2) s)
        else raiseAlarm .tailgate (setOccupancy (min (s.gate.occupancy + 1) 2) s) := by
      unfold laneEnter
      rw [h]
      exact (if_neg hlow).trans (if_pos rfl)
    have hc : secondCanEnter s.gate.queue = true ↔ x.side = g.side ∧ x.entered = false := by
      rw [hq]
      simp [secondCanEnter]
    by_cases hx : x.side = g.side ∧ x.entered = false
    · rw [if_pos hx]
      rw [if_pos (hc.mpr hx)] at he
      refine henter _ (he.trans ?_)
      simp [enterSecond, modGate, setOccupancy, hq, gate]
    · rw [if_neg hx]
      rw [if_neg (mt hc.mp hx)] at he
      exact hraise _ (.inr ⟨_, .inr h⟩) he
  case single =>
    refine hraise _ (.inr ⟨_, .inr h⟩) ?_
    unfold laneEnter
    rw [h]
    refine ((if_neg hlow).trans (if_pos rfl)).trans (if_neg ?_)
    show ¬ secondCanEnter s.gate.queue = true
    rw [hq]
    exact Bool.false_ne_true

/-- The pass timer of a lane after its head has left: a new head waits with the full window, unless it has
entered (R131, R134). -/
def headTimer (s : State) : List Grant → PassTimer
  | [] => .stopped
  | h :: _ => if h.entered then .stopped else fullWindow s

theorem nextHead_eq (s : State) :
    nextHead s = { s with gate := { s.gate with passTimer := headTimer s s.gate.queue } } := by
  unfold nextHead
  rw [startPassTimer_eq]
  cases hq : s.gate.queue with
  | nil => rfl
  | cons g rest => cases hg : g.entered <;> simp [hg, headTimer, stopPassTimer, modGate, hq]

/-- The head consumed (R131). -/
theorem consumeHead_eq {s : State} {g : Grant} {rest : List Grant} (hq : s.gate.queue = g :: rest) :
    consumeHead s =
      { s with
        gate := { s.gate with queue := rest, passTimer := headTimer s rest }
        journal :=
          { s.journal with counters :=
            { s.journal.counters with passages := advance32 s.journal.counters.passages } } } := by
  have hrest : rest = s.gate.queue.drop 1 := by rw [hq]; rfl
  rw [hrest]
  exact nextHead_eq _

/-- Settles O40. -/
theorem passedConsumesOrBacksOut : Obligations.PassedConsumesOrBacksOut := by
  intro sd s hp gate
  have hpass : ∀ t, lanePassed sd s = t → exec (.passed sd) s = .next (settle t) :=
    fun t h => exec_settles (f := lanePassed sd) rfl hp h
  have hother : sd.other ≠ sd := by cases sd <;> simp [Side.other]
  have hback : gateState s = .passing sd →
      lanePassed sd s = backOut (setOccupancy (s.gate.occupancy - 1) s) := fun h => by
    unfold lanePassed
    rw [h]
    exact if_pos rfl
  refine ⟨fun ha hb => hpass _ ?_, fun g rest h hq => hpass _ ?_,
    fun g x rest h hq => hpass _ ((hback h).trans ?_), fun g h hq => hpass _ ((hback h).trans ?_)⟩
  · unfold lanePassed
    split
    · next dir h => cases dir with
      | a => exact absurd h ha
      | b => exact absurd h hb
    · rfl
  · unfold lanePassed
    rw [h]
    refine (if_neg hother).trans
      ((consumeHead_eq (s := setOccupancy (s.gate.occupancy - 1) s) (g := g) hq).trans ?_)
    cases rest <;> rfl
  · unfold backOut setOccupancy modGate
    rw [hq]
    cases he : x.entered
    · simp [startPassTimer_eq, fullWindow, he, gate]
    · simp [he, gate]
  · unfold backOut setOccupancy modGate
    rw [hq]
    simp [startPassTimer_eq, fullWindow, gate]

/-- Any alarm but FORCED cleared: a paused pass timer resumes, and a head without one waits anew (R138). -/
theorem clearAlarm_eq (s : State) :
    clearAlarm s =
      { s with
        gate :=
          { s.gate with
            alarm := none
            queue := s.gate.queue.map (fun g => { g with entered := false })
            passTimer :=
              match s.gate.passTimer with
              | .paused left => .running left
              | t => if s.gate.queue = [] then t else fullWindow s } } := by
  unfold clearAlarm
  cases ht : s.gate.passTimer <;> cases hq : s.gate.queue <;>
    simp [startPassTimer_eq, modGate, clearMarks, fullWindow, ht, hq]

/-- Settles O41. -/
theorem clearEmptiesTheLane : Obligations.ClearEmptiesTheLane := by
  intro s hp unmarked gate next
  have hclear : ∀ g, laneClear s = { s with gate := g } → next g :=
    fun g h => exec_settles (f := laneClear) rfl hp h
  refine ⟨fun ⟨dir, h⟩ => hclear _ ?_, fun k h hk => ?_, fun h => hclear _ ?_⟩
  · unfold laneClear
    rw [h]
    exact (startPassTimer_eq _).trans rfl
  · have he : laneClear s = clearAlarm (setOccupancy 0 s) := by
      unfold laneClear
      rw [h]
      cases k with
      | forced => exact absurd rfl hk
      | _ => rfl
    rw [clearAlarm_eq] at he
    refine ⟨fun left ht => hclear _ (he.trans ?_), fun ht => hclear _ (he.trans ?_)⟩
    · show { s with gate := { s.gate with alarm := _, queue := _, passTimer := _, occupancy := 0 } } = _
      simp [setOccupancy, modGate, ht, gate, unmarked]
    · cases hpt : s.gate.passTimer with
      | paused left => exact absurd hpt (ht left)
      | stopped => simp [setOccupancy, modGate, hpt, gate, unmarked, fullWindow]
      | running left => simp [setOccupancy, modGate, hpt, gate, unmarked, fullWindow]
  · unfold laneClear
    simp only [List.mem_cons, List.not_mem_nil, or_false] at h
    rcases h with h | (h | h | h) | ⟨dir, h⟩ <;> rw [h] <;> rfl

/-- Settles O42. -/
theorem forcedAndOccupiedLongRaiseAlarms : Obligations.ForcedAndOccupiedLongRaiseAlarms := by
  intro s hp
  refine ⟨exec_settles (f := laneForced) rfl hp ?_,
    fun h => exec_settles (f := laneOccupied) rfl hp ?_,
    fun h => exec_settles (f := laneOccupied) rfl hp ?_⟩
  · unfold laneForced
    rw [raiseAlarm_forced]
  · have hr := raiseAlarm_eq .obstructed (alarm_none_of_open h)
    unfold laneOccupied
    rcases h with h | ⟨dir, h | h⟩ <;> rw [h] <;> exact hr
  · unfold laneOccupied
    simp only [List.mem_cons, List.not_mem_nil, or_false] at h
    rcases h with (h | h) | ⟨k, h⟩ <;> rw [h]

/-! ### What the end of a transaction and the withdrawal of a grant leave -/

/-- A lane but for its reservations and the STOPs shown. -/
def laneItems (g : Gate) : Gate := { g with reserved := 0, stopTimer := ⟨none, none⟩ }

theorem gate_of_laneItems {g h : Gate} (hl : laneItems g = laneItems h) :
    g = { h with reserved := g.reserved, stopTimer := g.stopTimer } := by
  cases g
  cases h
  simp_all [laneItems]

/-- What the end of a transaction and a finding in one leave: the standing items, the lane, the tables and
the view of the hotlist, the sent list, each channel's state, the engines and the unused counter. -/
structure BystandItems where
  standing : Standing
  lane : Gate
  store : TableStore
  version : Nat
  active : List HotEntry
  sent : List SentEntry
  duplicate : Bool
  chans : Sided ChanState
  engines : Sided (Option ChanJob)
  unused : Nat

def bystandItems (s : State) : BystandItems :=
  { standing := standing s, lane := laneItems s.gate, store := s.store, version := s.hot.version
    active := activeEntries s.hot, sent := s.ring.sent, duplicate := s.ring.duplicate
    chans := ⟨s.chans.a.state, s.chans.b.state⟩, engines := s.engines
    unused := s.journal.counters.unused }

theorem bystandItems_chan {s u : State} (h : (bystandItems u).chans = (bystandItems s).chans)
    (sd : Side) : (u.chans.get sd).state = (s.chans.get sd).state := by
  cases sd
  · exact congrArg Sided.a h
  · exact congrArg Sided.b h

@[simp] theorem setTap_bystand (sd : Side) (p : Tap) (s : State) :
    bystandItems (setTap sd p s) = bystandItems s := rfl
@[simp] theorem modTap_bystand (sd : Side) (f : Tap → Tap) (s : State) :
    bystandItems (modTap sd f s) = bystandItems s := rfl
@[simp] theorem modRecord_bystand (sd : Side) (f : TapRecord → TapRecord) (s : State) :
    bystandItems (modRecord sd f s) = bystandItems s := rfl
@[simp] theorem countRefusal_bystand (code : RefusalCode) (s : State) :
    bystandItems (modCounters (countRefusal code) s) = bystandItems s := rfl
@[simp] theorem startStop_bystand (sd : Side) (c : StopCategory) (s : State) :
    bystandItems (startStop sd c s) = bystandItems s := rfl
@[simp] theorem askHalt_bystand (sd : Side) (s : State) :
    bystandItems (askHalt sd s) = bystandItems s := by cases sd <;> rfl
@[simp] theorem closeRecord_bystand (sd : Side) (missed : Bool) (s : State) :
    bystandItems (closeRecord sd missed s) = bystandItems s := rfl

@[simp] theorem offerRecord_bystand (r : JournalRecord) (s : State) :
    bystandItems (offerRecord r s) = bystandItems s := by
  unfold offerRecord
  split <;> rfl

@[simp] theorem recordRefusal_bystand (sd : Side) (kind : JournalKind) (code : RefusalCode) (s : State) :
    bystandItems (recordRefusal sd kind code s) = bystandItems s := by simp [recordRefusal]

@[simp] theorem releaseInsertion_bystand (sd : Side) (s : State) :
    bystandItems (releaseInsertion sd s) = bystandItems s := by
  unfold releaseInsertion
  split <;> rfl

@[simp] theorem releaseJournal_bystand (sd : Side) (s : State) :
    bystandItems (releaseJournal sd s) = bystandItems s := by
  unfold releaseJournal
  split <;> rfl

@[simp] theorem releaseGrantSlot_bystand (sd : Side) (s : State) :
    bystandItems (releaseGrantSlot sd s) = bystandItems s := by
  unfold releaseGrantSlot
  split <;> rfl

@[simp] theorem releaseReservations_bystand (sd : Side) (s : State) :
    bystandItems (releaseReservations sd s) = bystandItems s := by simp [releaseReservations]

/-! #### Tear contexts -/

@[simp] theorem modContext_bystand (u : Uid) (f : Context → Context) (s : State) :
    bystandItems (modContext u f s) = bystandItems s := rfl

@[simp] theorem expireContext_bystand (c : Context) (s : State) :
    bystandItems (expireContext c s) = bystandItems s := offerRecord_bystand _ _

@[simp] theorem releaseContext_bystand (sd : Side) (s : State) :
    bystandItems (releaseContext sd s) = bystandItems s := by
  unfold releaseContext
  repeat' split
  all_goals simp

@[simp] theorem createContext_bystand (sd : Side) (s : State) :
    bystandItems (createContext sd s) = bystandItems s := by
  have henter : ∀ c t, bystandItems (enterContext c t) = bystandItems t := fun c t => by
    unfold enterContext
    split <;> rfl
  have hroom : ∀ t, bystandItems (makeRoom t) = bystandItems t := fun t => by
    unfold makeRoom
    repeat' split
    all_goals simp
  unfold createContext
  rw [henter, hroom]
  split <;> simp

@[simp] theorem updateContext_bystand (c : Context) (sd : Side) (s : State) :
    bystandItems (updateContext c sd s) = bystandItems s := by
  unfold updateContext
  dsimp only
  split <;> simp

/-! #### Sightings and findings -/

theorem modHot_bystand {f : Hotlist → Hotlist} {s : State} (hv : (f s.hot).version = s.hot.version)
    (ha : activeEntries (f s.hot) = activeEntries s.hot) :
    bystandItems (modHot f s) = bystandItems s := by
  unfold bystandItems
  rw [show (modHot f s).hot = f s.hot from rfl, hv, ha]
  rfl

/-- An addition leaves the version and the active bank (R113). -/
theorem addLocal_view (u : Uid) (h : Hotlist) :
    (addLocal u h).version = h.version ∧ activeEntries (addLocal u h) = activeEntries h := by
  unfold addLocal
  repeat' split
  all_goals exact ⟨rfl, rfl⟩

@[simp] theorem offerLocal_bystand (u : Uid) (s : State) :
    bystandItems (offerLocal u s) = bystandItems s := by
  unfold offerLocal
  split
  · exact modHot_bystand (addLocal_view u s.hot).1 (addLocal_view u s.hot).2
  · exact modHot_bystand rfl rfl

@[simp] theorem joinInsertion_bystand (m : LineMsg) (s : State) :
    bystandItems (modRing (joinInsertion m) s) = bystandItems s := by
  unfold modRing joinInsertion
  repeat' split
  all_goals rfl

@[simp] theorem cloneParty_bystand (sd : Side) (reason : FindingReason) (s : State) :
    bystandItems (cloneParty sd reason s) = bystandItems s := by simp [cloneParty]

@[simp] theorem takeUpMark_bystand (sd : Side) (s : State) :
    bystandItems (takeUpMark sd s) = bystandItems s := by
  unfold takeUpMark
  split <;> simp

@[simp] theorem withdrawIntent_bystand (sd : Side) (given : Option Displaced) (s : State) :
    bystandItems (withdrawIntent sd given s) = bystandItems s := by
  obtain ⟨left, hl⟩ := intentLeaves_total s.ring.insertion (s.taps.get sd).record.intent
  rw [withdrawIntent_of hl]
  rfl

@[simp] theorem takeFinding_bystand (sd : Side) (reason : FindingReason) (x : Sighting) (s : State) :
    bystandItems (takeFinding sd reason x s) = bystandItems s := by
  unfold takeFinding
  split
  · simp [refuseClone, refuse, refuseSequence]
  · simp

@[simp] theorem judgeSide_bystand (sd : Side) (x : Sighting) (rule : Option FindingReason) (s : State) :
    bystandItems (judgeSide sd x rule s) = bystandItems s := by
  unfold judgeSide
  repeat' split
  all_goals simp

/-- An own sighting and what it finds leave these items. -/
theorem ownSighting_bystand (sd : Side) {x : Sighting} (hx : x.kind ≠ .intent) (s : State) :
    bystandItems (ownSighting sd x s) = bystandItems s := by
  obtain ⟨table, rule, queue, -, -, h⟩ := (ownTaken_iff (sd := sd) (v := s) hx).mpr rfl
  rw [sideJudged_iff] at h
  rw [h, judgeSide_bystand, ← bystander_eq]
  unfold bystander
  split
  · exact offerLocal_bystand _ _
  · rfl

/-! #### Grants withdrawn -/

theorem recordOffered_unused (r : JournalRecord) (j : Journal) :
    (recordOffered r j).counters.unused = j.counters.unused := by
  unfold recordOffered
  split <;> rfl

theorem unusedOffered_unused (s : State) (e : Bool) (j : Journal) (g : Grant) :
    (unusedOffered s e j g).counters.unused = advance32 j.counters.unused := by
  unfold unusedOffered
  dsimp only
  rw [recordOffered_unused]

theorem giveUpGrant_bystand (e : Bool) (s : State) (g : Grant) :
    bystandItems (giveUpGrant e s g) =
      { bystandItems s with unused := advance32 s.journal.counters.unused } := by
  unfold giveUpGrant
  dsimp only
  rw [unusedRecord_offered, ownSighting_bystand _ (by simp [makeSighting]), ← unusedOffered_unused s e _ g]
  rfl

/-- A counter advanced once for each of `n` events (R195). -/
def advanced : Nat → Nat → Nat
  | 0, x => x
  | n + 1, x => advanced n (advance32 x)

/-- Grants withdrawn leave these items but the unused counter, which each of them advances (R135). -/
theorem giveUpGrants_bystand (e : Bool) (grants : List Grant) (s : State) :
    bystandItems (grants.foldl (giveUpGrant e) s) =
      { bystandItems s with unused := advanced grants.length s.journal.counters.unused } := by
  induction grants generalizing s with
  | nil => rfl
  | cons g rest ih =>
    have hg := giveUpGrant_bystand e s g
    have hu : (giveUpGrant e s g).journal.counters.unused = advance32 s.journal.counters.unused :=
      congrArg BystandItems.unused hg
    rw [List.foldl_cons, ih, hg, hu]
    rfl

/-- A counter advanced at least once stands below its range (R195). -/
theorem advanced_of_ne_zero (n x : Nat) (hn : n ≠ 0) : advanced n x = (x + n) % 4294967296 := by
  induction n generalizing x with
  | zero => exact absurd rfl hn
  | succ n ih =>
    unfold advanced advance32
    cases n with
    | zero => rfl
    | succ n => rw [ih _ (Nat.succ_ne_zero n)]; omega

/-! ### The gate state of a shut lane -/

theorem gateState_free_iff {s : State} :
    gateState s = .free ↔ s.emerg = true ∨ s.gate.freeFlag = true := by
  unfold gateState
  rw [← Bool.or_eq_true]
  split
  · next h => simp [h]
  · next h =>
    refine iff_of_false ?_ h
    split
    · simp
    split
    · simp
    split
    · split <;> simp
    · simp

/-- FREE apart, an out-of-service condition decides (R125). -/
theorem gateState_outOfService {s : State} (hf : gateState s ≠ .free) (ho : outOfService s = true) :
    gateState s = .outOfService := by
  have hn : ¬ (s.emerg || s.gate.freeFlag) = true := by
    rw [Bool.or_eq_true]
    exact mt gateState_free_iff.mpr hf
  unfold gateState
  rw [if_neg hn, if_pos ho]

/-- A shut lane that holds nothing stays as it is. -/
theorem deriveGate_empty {v : State} (hq : v.gate.queue = []) (ht : v.gate.passTimer = .stopped)
    (ha : v.gate.alarm = none ∨ v.gate.alarm = some .forced) : deriveGate v = v := by
  by_cases h : laneShut v
  · refine ((laneEmptied_iff h).mp ?_).symm
    have ha' : v.gate.alarm = if v.gate.alarm = some .forced then some .forced else none := by
      rcases ha with h | h <;> rw [h] <;> rfl
    refine ⟨_, by rw [hq]; exact .none _, ?_⟩
    show v = { v with gate := { v.gate with alarm := _, queue := [], passTimer := .stopped } }
    rw [← ha', ← hq, ← ht]
  · exact deriveGate_open h

/-- What a shut lane holds after its grants have been withdrawn from `v` to `u`. -/
structure LaneLeft (grants : List Grant) (v u : State) : Prop where
  gate : u.gate =
    { v.gate with
      queue := [], passTimer := .stopped
      alarm := if v.gate.alarm = some .forced then some .forced else none
      reserved := u.gate.reserved, stopTimer := u.gate.stopTimer }
  store : u.store = v.store
  sent : u.ring.sent = v.ring.sent
  duplicate : u.ring.duplicate = v.ring.duplicate
  chan : ∀ sd, (u.chans.get sd).state = (v.chans.get sd).state
  standing : standing u = standing v
  unused : u.journal.counters.unused = advanced grants.length v.journal.counters.unused

theorem laneLeft {grants : List Grant} {v u : State} (h : LaneEmptied v grants u) :
    LaneLeft grants v u := by
  obtain ⟨w, hw, rfl⟩ := h
  rw [grantsWithdrawn_iff] at hw
  have hk := giveUpGrants_bystand (decide (gateState v = .free)) grants
    { v with gate := { v.gate with queue := [] } }
  rw [← hw] at hk
  have hlane := gate_of_laneItems (congrArg BystandItems.lane hk)
  have hchans : (bystandItems w).chans = (bystandItems v).chans :=
    (congrArg BystandItems.chans hk).trans rfl
  exact ⟨by dsimp only; rw [hlane], congrArg BystandItems.store hk, congrArg BystandItems.sent hk,
    congrArg BystandItems.duplicate hk, bystandItems_chan (s := v) (u := w) hchans,
    congrArg BystandItems.standing hk, congrArg BystandItems.unused hk⟩

/-- The lane shut keeps the gate state. -/
theorem LaneLeft.gateState {grants : List Grant} {v u : State} (h : LaneLeft grants v u)
    (hs : laneShut v) : gateState u = gateState v := by
  rw [← gateState_shut hs (fun g =>
    { g with queue := [], alarm := if g.alarm = some .forced then some .forced else none })
    (fun _ => rfl)]
  refine gateState_congr (congrArg Standing.emerg h.standing) ?_ ?_ ?_ h.store
    (congrArg (fun x => x.clock.isSet) h.standing) h.duplicate
  · rw [h.gate]
  · rw [h.gate]
  · rw [h.gate]

/-! ### A UID with no transaction in flight -/

theorem anyInFlight_false {s : State} {u : Uid} :
    anyInFlight s u = false ↔ inFlight s .a u = false ∧ inFlight s .b u = false := by
  unfold anyInFlight
  rw [Bool.or_eq_false_iff]

/-- An own sighting for whose UID no transaction is in flight is taken, and joins the insertion queue. -/
theorem ownSighting_idle {sd : Side} {x : Sighting} {s : State} (hx : x.kind ≠ .intent)
    (h : anyInFlight s x.uid = false) :
    ∃ table rule queue hot, TableTakes (MeetsOwn x) x (liveEntries s s.sightings) table rule ∧
      ownSighting sd x s =
        { s with sightings := table, ring := { s.ring with insertion := queue }, hot := hot } := by
  obtain ⟨ha, hb⟩ := anyInFlight_false.mp h
  obtain ⟨table, rule, queue, ht, -, hj⟩ := (ownTaken_iff (sd := sd) (v := s) hx).mpr rfl
  have hby : ∃ hot, bystanding x rule
      { s with sightings := table, ring := { s.ring with insertion := queue } } =
      { s with sightings := table, ring := { s.ring with insertion := queue }, hot := hot } := by
    unfold bystanding
    split
    · exact ⟨_, rfl⟩
    · exact ⟨_, rfl⟩
  obtain ⟨hot, hby⟩ := hby
  have hother : inFlight s sd.other x.uid = false := by
    cases sd with
    | a => exact hb
    | b => exact ha
  rw [sideJudged_iff, hby] at hj
  exact ⟨table, rule, queue, hot, ht, hj.trans (judgeSide_idle hother)⟩

/-- A grant withdrawn with no transaction of its UID in flight (R135). -/
theorem giveUpGrant_idle {e : Bool} {s : State} {g : Grant} (h : anyInFlight s g.uid = false) :
    ∃ table rule queue hot,
      TableTakes (MeetsOwn (makeSighting s g.side g.uid .unused g.tc g.tc))
        (makeSighting s g.side g.uid .unused g.tc g.tc) (liveEntries s s.sightings) table rule ∧
      giveUpGrant e s g =
        { s with
          journal := unusedOffered s e s.journal g
          sightings := table, ring := { s.ring with insertion := queue }, hot := hot } := by
  unfold giveUpGrant
  dsimp only
  rw [unusedRecord_offered]
  exact ownSighting_idle (s := { s with journal := unusedOffered s e s.journal g })
    (by simp [makeSighting]) h

/-- Grants withdrawn with no transaction of theirs in flight leave their records and no more (R135). -/
theorem giveUpGrants_idle (e : Bool) (grants : List Grant) (s : State)
    (h : ∀ g ∈ grants, anyInFlight s g.uid = false) :
    ∃ table queue hot,
      grants.foldl (giveUpGrant e) s =
        { s with
          journal := grants.foldl (unusedOffered s e) s.journal
          sightings := table, ring := { s.ring with insertion := queue }, hot := hot } := by
  induction grants generalizing s with
  | nil => exact ⟨s.sightings, s.ring.insertion, s.hot, rfl⟩
  | cons g rest ih =>
    obtain ⟨table, -, queue, hot, -, hg⟩ := giveUpGrant_idle (e := e) (h g (List.mem_cons_self ..))
    obtain ⟨table', queue', hot', hr⟩ := ih
      { s with
        journal := unusedOffered s e s.journal g
        sightings := table, ring := { s.ring with insertion := queue }, hot := hot }
      (fun x hx => h x (List.mem_cons_of_mem _ hx))
    rw [List.foldl_cons, hg, hr]
    exact ⟨table', queue', hot', rfl⟩

/-- A shut lane emptied with no transaction of its grants in flight. -/
theorem laneEmptied_idle {grants : List Grant} {v u : State} (hl : LaneEmptied v grants u)
    (h : ∀ g ∈ grants, anyInFlight v g.uid = false) :
    u.journal = grants.foldl (unusedOffered v (decide (gateState v = .free))) v.journal ∧
      u.gate.reserved = v.gate.reserved ∧ u.taps = v.taps ∧ u.contexts = v.contexts := by
  obtain ⟨w, hw, rfl⟩ := hl
  rw [grantsWithdrawn_iff] at hw
  obtain ⟨table, queue, hot, he⟩ := giveUpGrants_idle (decide (gateState v = .free)) grants
    { v with gate := { v.gate with queue := [] } } h
  rw [hw, he]
  exact ⟨rfl, rfl, rfl, rfl⟩

/-- With no grant a shut lane leaves the journal, the transactions and the Sighting Table. -/
theorem laneEmptied_nil {v u : State} (hl : LaneEmptied v [] u) :
    u.journal = v.journal ∧ u.taps = v.taps ∧ u.sightings = v.sightings := by
  obtain ⟨w, hw, rfl⟩ := hl
  cases hw
  exact ⟨rfl, rfl, rfl⟩

/-! ### The emergency -/

/-- The event of a running part, whatever the level of the EMERG pin. -/
theorem answered_live {f : State → State} {s : State} (hp : s.power = .running) :
    answered (live f s) = .next (settle (f s)) := by
  rw [live_running hp]
  rfl

/-- Settles O44. -/
theorem emergencyFreesTheGate : Obligations.EmergencyFreesTheGate := by
  intro s hp
  refine ⟨?asserted, fun h => ?released, fun hq ha => ?derived⟩
  case asserted =>
    have hfree : gateState { s with emerg := true } = .free := gateState_free_iff.mpr (.inl rfl)
    have hshut : laneShut { s with emerg := true } := .inr hfree
    obtain ⟨u, hu⟩ : ∃ u, u = deriveGate { s with emerg := true } := ⟨_, rfl⟩
    have hempty : LaneEmptied { s with emerg := true } s.gate.queue u := (laneEmptied_iff hshut).mpr hu
    have hleft := laneLeft hempty
    have hgate := (hleft.gateState hshut).trans hfree
    have hexec : exec .emergAsserted s = .next (settle u) := by
      rw [hu]
      exact answered_live (s := { s with emerg := true }) hp
    have hdark : ∀ sd, sideEnabled u sd = false := fun sd => by simp [sideEnabled, hgate]
    have hind : ∀ sd, (settle u).gate.indicator.get sd = .free := fun sd => by
      rw [shows_indicator (settle_shows u), settle_indicatorOf]
      exact if_pos hgate
    refine ⟨settle u, hexec, ?_, ?_, ?_, ?_, ?_, ?_, ?_, ?_, fun hne => ?_, ⟨u, hempty, rfl⟩,
      fun hidle => ?_, fun hq => ?_, fun sd hst => ?_, fun sd hst => ?_, ?_, ?_, ?_, ?_⟩
    · rw [settle_emerg]; exact congrArg Standing.emerg hleft.standing
    · rw [settle_gateState, hgate]
    · rw [settle_queue, hleft.gate]
    · rw [settle_passTimer, hleft.gate]
    · rw [settle_alarm, hleft.gate]
    · rw [(settle_shows u).leaf, settle_gateState, hgate]; rfl
    · have ha := hind .a
      have hb := hind .b
      revert ha hb
      cases (settle u).gate.indicator
      rintro rfl rfl
      rfl
    · rw [settle_freeFlag, hleft.gate]
    · rw [settle_journal, hleft.unused, advanced_of_ne_zero _ _ (by simpa using hne)]
    · rw [settle_journal, settle_taps]
      obtain ⟨hj, -, ht, -⟩ := laneEmptied_idle hempty hidle
      rw [hj, hfree]
      exact ⟨rfl, ht⟩
    · rw [settle_journal, settle_taps, settle_sightings]
      rw [hq] at hempty
      exact laneEmptied_nil (v := { s with emerg := true }) hempty
    · rw [settle_chan, hdark]
      have hc := hleft.chan sd
      unfold channelEnabled
      simp only [List.mem_cons, List.not_mem_nil, or_false] at hst
      rcases hst with hst | hst <;> rw [hc.trans hst] <;> rfl
    · rw [settle_chan, hdark]
      have hc := (hleft.chan sd).trans hst
      unfold channelEnabled
      rw [hc]
      exact hc
    · rw [settle_keys]; exact congrArg Standing.keys hleft.standing
    · rw [settle_store]; exact hleft.store
    · rw [settle_clock]; exact congrArg Standing.clock hleft.standing
    · rw [settle_decoder]; exact congrArg Standing.decoder hleft.standing
  case released =>
    have hexec : exec .emergReleased s = .next (settle (deriveGate { s with emerg := false })) :=
      answered_live (s := { s with emerg := false }) hp
    rw [hexec]
    rcases h with ⟨hf, ho⟩ | ⟨hq, ht, ha⟩
    · rw [deriveGate_open (v := { s with emerg := false }) (not_or.mpr ⟨ho, hf⟩)]
    · rw [deriveGate_empty (v := { s with emerg := false }) hq ht ha]
  case derived =>
    unfold gateState
    dsimp only
    rw [Bool.false_or, hq]
    have ho : outOfService { s with emerg := false } = outOfService s := rfl
    rw [ho]
    rcases ha with ha | ha <;> rw [ha] <;> rfl

/-! ### A frame stripped -/

/-- Settles O35. -/
theorem ownFrameIsStripped : Obligations.OwnFrameIsStripped := by
  intro f s hp hr hs
  have hmatch : ∀ x : SentEntry, sentMatches f x = true ↔
      x.kind = f.kind ∧ x.length = f.payload.length ∧ x.crc = f.crc := fun x => by
    simp [sentMatches, and_assoc]
  have hexec : ∀ t, stripFrame f s = t → exec (.frameStripped f) s = .next (settle t) := fun t h => by
    refine exec_settles (f := receiveOwn f) rfl hp ?_
    unfold receiveOwn
    rw [hr, hs]
    exact h
  refine ⟨fun e before after hsent he hbefore => hexec _ ?_, fun hnone => ?_⟩
  · have hnot : ∀ x ∈ before, ¬ sentMatches f x = true := fun x hx =>
      mt (hmatch x).mp (hbefore x hx)
    have hfind : s.ring.sent.find? (sentMatches f) = some e := by
      rw [hsent, List.find?_append, List.find?_eq_none.mpr hnot]
      simp [(hmatch e).mpr he]
    have herase : s.ring.sent.erase e = before ++ after := by
      rw [hsent, List.erase_append_right _ fun hm => hnot e hm ((hmatch e).mpr he)]
      simp
    unfold stripFrame
    rw [hfind]
    dsimp only [modRing]
    rw [herase]
  · intro marked
    have hfind : s.ring.sent.find? (sentMatches f) = none :=
      List.find?_eq_none.mpr fun x hx => mt (hmatch x).mp (hnone x hx)
    have hfree : gateState marked = .free ↔ gateState s = .free := by
      rw [gateState_free_iff, gateState_free_iff]
    have hout : outOfService marked = true := by
      unfold outOfService
      simp [marked]
    have hshut : laneShut marked := by
      by_cases h : gateState marked = .free
      · exact .inr h
      · exact .inl (gateState_outOfService h hout)
    obtain ⟨u, hu⟩ : ∃ u, u = deriveGate marked := ⟨_, rfl⟩
    have hempty : LaneEmptied marked s.gate.queue u := (laneEmptied_iff hshut).mpr hu
    have hleft := laneLeft hempty
    have hstrip : stripFrame f s = u := by
      rw [hu]
      unfold stripFrame
      rw [hfind]
      rfl
    refine ⟨u, hexec u hstrip, hempty, hleft.duplicate, hleft.sent, ?_, ?_, ?_, ?_, fun h => ?_,
      fun hidle => ?_, fun hq => ?_, congrArg Standing.keys hleft.standing, hleft.store,
      congrArg Standing.clock hleft.standing⟩
    · rw [hleft.gate]
    · rw [hleft.gate]
    · rw [hleft.gate]
    · rw [hleft.gate]
    · have hg : gateState u = .outOfService :=
        (hleft.gateState hshut).trans (gateState_outOfService (mt hfree.mp h) hout)
      rw [(settle_shows u).leaf, settle_gateState, hg]
      exact ⟨rfl, rfl⟩
    · obtain ⟨hj, hres, ht, hc⟩ := laneEmptied_idle hempty hidle
      refine ⟨hj.trans ?_, hres, ht, hc⟩
      rw [show decide (gateState marked = .free) = decide (gateState s = .free) from
        decide_eq_decide.mpr hfree]
      rfl
    · rw [hq] at hempty
      exact (laneEmptied_nil hempty).2.2

/-! ### The pass timer expires -/

/-- The gate state of an OPEN lane with another queue (R125). -/
theorem gateState_queue {s : State} {dir : Side} (h : gateState s = .opened dir) (q : List Grant) :
    (∀ g ∈ q, g.entered = false) →
      gateState { s with gate := { s.gate with queue := q } } =
        match q with
        | [] => .closed
        | g :: _ => .opened g.side := by
  intro hq
  have hout : outOfService { s with gate := { s.gate with queue := q } } = outOfService s := rfl
  have ha := alarm_none_of_open (.inr ⟨dir, .inl h⟩)
  unfold gateState at h ⊢
  split at h
  · cases h
  next hf =>
  split at h
  · cases h
  next ho =>
  rw [hout, if_neg hf, if_neg ho]
  dsimp only
  rw [ha]
  cases q with
  | nil => rfl
  | cons g rest => simp [hq g (List.mem_cons_self ..)]

/-- The entry of a UID after an own UNUSED has been taken where none stood. -/
theorem taken_new {rule : SightEntry → SightEntry → Option FindingReason → Prop} {x : Sighting}
    {table after : List SightEntry} {reason : Option FindingReason}
    (h : TableTakes rule x table after reason) (hnone : ∀ e ∈ table, e.sighting.uid ≠ x.uid)
    (hroom : table.length < 2048 ∨ ∃ e ∈ table, e.pin = false) :
    after.find? (fun e => e.sighting.uid = x.uid) = some ⟨x, false, false, none⟩ := by
  have hlast : ∀ l : List SightEntry, (∀ e ∈ l, e ∈ table) →
      (l ++ [(⟨x, false, false, none⟩ : SightEntry)]).find? (fun e => e.sighting.uid = x.uid) =
        some ⟨x, false, false, none⟩ := fun l hl => by
    rw [List.find?_append,
      List.find?_eq_none.mpr fun e he => by simpa using hnone e (hl e he)]
    simp
  cases h with
  | new _ _ => exact hlast _ fun _ he => he
  | evicted before o tail _ _ htable _ _ _ =>
    refine hlast _ fun e he => ?_
    rw [htable]
    rcases List.mem_append.mp he with he | he <;> simp [he]
  | pinned _ hfull hpins =>
    rcases hroom with hlt | ⟨e, he, hpin⟩
    · omega
    · exact absurd (hpins e he) (by simp [hpin])
  | standing e e' _ he _ =>
    exact absurd (by simpa using List.find?_some he) (hnone e (List.mem_of_find?_eq_some he))

/-- The entry of a UID after a sighting has met it. -/
theorem taken_standing {rule : SightEntry → SightEntry → Option FindingReason → Prop} {x : Sighting}
    {table after : List SightEntry} {reason : Option FindingReason} {e : SightEntry}
    (h : TableTakes rule x table after reason)
    (he : table.find? (fun y => y.sighting.uid = x.uid) = some e)
    (huid : ∀ e' reason, rule e e' reason → e'.sighting.uid = x.uid) :
    ∃ e' reason, rule e e' reason ∧ after.find? (fun y => y.sighting.uid = x.uid) = some e' := by
  have hmem := List.mem_of_find?_eq_some he
  have heuid : e.sighting.uid = x.uid := by simpa using List.find?_some he
  cases h with
  | new hnone _ => exact absurd heuid (hnone e hmem)
  | evicted _ _ _ hnone _ _ _ _ _ => exact absurd heuid (hnone e hmem)
  | pinned hnone _ _ => exact absurd heuid (hnone e hmem)
  | standing e₀ e' reason he₀ hr =>
    obtain rfl : e₀ = e := Option.some.inj (he₀.symm.trans he)
    refine ⟨e', reason, hr, ?_⟩
    have hu := huid e' reason hr
    have hsame : ((fun y : SightEntry => decide (y.sighting.uid = x.uid)) ∘
        fun y => if y.sighting.uid = x.uid then e' else y) =
        fun y => decide (y.sighting.uid = x.uid) := by
      funext y
      by_cases hy : y.sighting.uid = x.uid <;> simp [hy, hu]
    rw [List.find?_map, hsame, he]
    simp [heuid]

/-- An own UNUSED on a standing entry (R94, R96). -/
theorem meetsOwn_unused {x : Sighting} (hx : x.kind = .unused) {e e' : SightEntry}
    {reason : Option FindingReason} (h : MeetsOwn x e e' reason) :
    e' = if (e.sighting.source = x.source ∧ e.pin = false) ∨ e.sighting.result ≤ x.result then
        ⟨x, e.contested, false, none⟩
      else e := by
  have hpin : ∀ {p : Prop}, p ∨ e.pin = true → ¬ (¬ p ∧ e.pin = false) := by
    rintro p (h | h) ⟨h1, h2⟩
    · exact h1 h
    · simp [h] at h2
  rcases h with ⟨-, -, -, h⟩ | ⟨_, _, -, hm⟩
  · exact absurd hx h
  · cases hm with
    | sameSource h1 h2 => rw [if_pos (.inl ⟨h1, h2⟩)]
    | stateBehind hs _ hlt =>
      rw [if_neg]
      rintro (⟨h1, h2⟩ | h)
      · exact hpin hs ⟨fun hn => hn h1, h2⟩
      · omega
    | stateAhead _ _ hle _ => rw [if_pos (.inr hle)]
    | contestWon _ hk _ _ => simp [hx] at hk
    | contestKept _ hk _ _ => simp [hx] at hk
    | intentBehind _ hk _ _ => simp [hx] at hk
    | intentAhead _ hk _ _ => simp [hx] at hk
    | doubleReuse hk _ _ _ _ _ => simp [hx] at hk

/-- The UNUSED record of a grant, where one fits (R135, R191). -/
theorem unusedOffered_room (s : State) (e : Bool) (g : Grant) {j : Journal} (h : 1 ≤ journalAvailable j) :
    ∃ r, (unusedOffered s e j g).records = j.records ++ [r] ∧ r.kind = .unused ∧ r.uid = g.uid ∧
      r.cls = g.cls ∧ r.side = g.side ∧ r.tcAfter = some g.tc ∧
      r.flags = ⟨noFareFlags, false, false, e⟩ ∧ r.lineTime = s.clock.lineTime ∧
      r.sequence = j.nextSequence ∧ r.refusal = none ∧ r.tcBefore = none ∧ r.fare = none ∧
      r.balanceAfter = none ∧ (unusedOffered s e j g).counters.unrecorded = j.counters.unrecorded := by
  unfold unusedOffered recordOffered
  rw [if_pos h]
  exact ⟨_, rfl, rfl, rfl, rfl, rfl, rfl, rfl, rfl, rfl, rfl, rfl, rfl, rfl, rfl⟩

/-- A full Journal Queue counts the UNUSED record instead (R192). -/
theorem unusedOffered_full (s : State) (e : Bool) (g : Grant) {j : Journal} (h : journalAvailable j = 0) :
    (unusedOffered s e j g).records = j.records ∧
      (unusedOffered s e j g).nextSequence = j.nextSequence ∧
      (unusedOffered s e j g).counters.unrecorded = advance32 j.counters.unrecorded := by
  unfold unusedOffered recordOffered
  rw [if_neg (by omega)]
  exact ⟨rfl, rfl, rfl⟩

theorem unusedOffered_fareTotal (s : State) (e : Bool) (j : Journal) (g : Grant) :
    (unusedOffered s e j g).counters.fareTotal = j.counters.fareTotal := by
  unfold unusedOffered recordOffered
  dsimp only
  split <;> rfl

/-- The pass timer of an OPEN lane expires: its head is given up, and the next one waits (R134). -/
theorem passTimerEnds_eq {s : State} {dir : Side} {left : Nat} {g : Grant} {rest : List Grant}
    (ht : s.gate.passTimer = .running left) (hg : gateState s = .opened dir)
    (hq : s.gate.queue = g :: rest) :
    passTimerEnds s =
      giveUpGrant false
        { s with gate := { s.gate with queue := rest, passTimer := headTimer s rest } } g := by
  unfold passTimerEnds passTimerRuns
  rw [ht]
  refine (if_pos rfl).trans ?_
  unfold passExpiry
  rw [hq, hg]
  dsimp only
  rw [nextHead_eq]
  rfl

/-- Settles O43. -/
theorem passTimerExpiryWithdrawsTheHead : Obligations.PassTimerExpiryWithdrawsTheHead := by
  intro g rest dir left s hp ht hg hq hrest ha hb x live
  obtain ⟨table, rule, queue, hot, htakes, hu⟩ := giveUpGrant_idle (e := false)
    (s := { s with gate := { s.gate with queue := rest, passTimer := headTimer s rest } }) (g := g)
    (anyInFlight_false.mpr ⟨ha, hb⟩)
  have htakes : TableTakes (MeetsOwn x) x live table rule := htakes
  have hhead : headTimer s rest = if rest = [] then .stopped else fullWindow s := by
    cases rest with
    | nil => rfl
    | cons h tail =>
      rw [if_neg (List.cons_ne_nil _ _)]
      unfold headTimer
      dsimp only
      rw [hrest h (List.mem_cons_self ..)]
      rfl
  have hentry : ∀ t : State, t.sightings = table →
      entryOf t g.uid = table.find? (fun e => e.sighting.uid = x.uid) := fun t h => by
    unfold entryOf
    rw [h]
  refine ⟨_, exec_settles (f := passTimerEnds) rfl hp ((passTimerEnds_eq ht hg hq).trans hu), ?_, ?_,
    ?_, fun hroom => ?_, fun hfull => ?_, ?_, ?_, fun hnone hroom => ?_, fun e he => ?_, ?_, ?_, ?_, ?_⟩
  · rw [settle_queue]
  · rw [settle_passTimer]
    refine hhead.trans ?_
    unfold fullWindow
    rw [ht] <;> rfl
  · rw [settle_gateState]
    exact (gateState_congr rfl rfl rfl rfl rfl rfl rfl).trans (gateState_queue hg rest hrest)
  · rw [settle_journal]
    obtain ⟨r, hr⟩ := unusedOffered_room s false g hroom
    exact ⟨r, hr⟩
  · rw [settle_journal]
    exact unusedOffered_full s false g hfull
  · rw [settle_journal]
    exact unusedOffered_unused _ _ _ _
  · rw [settle_journal]
    exact unusedOffered_fareTotal s false s.journal g
  · rw [hentry _ (settle_sightings _)]
    exact taken_new htakes hnone (hroom.imp_right fun h => h.2)
  · rw [hentry _ (settle_sightings _)]
    obtain ⟨e', reason, hr, hfind⟩ := taken_standing htakes he fun e' reason hr => by
      rw [meetsOwn_unused rfl hr]
      have : e.sighting.uid = x.uid := by simpa using List.find?_some he
      split
      · rfl
      · exact this
    rw [hfind, meetsOwn_unused rfl hr]
  · rw [settle_taps]
  · rw [settle_contexts]
  · rw [settle_store]
  · rw [settle_standing]
    rfl

end Sys2Proof.Machine

/-! ## Management requests: open requests, counters, SETUP and GATE (O45 to O48) -/

namespace Sys2Proof.Machine

/-! ### Fields of answer data (R203, R207) -/

theorem beNat_append (a : List Byte) (b : Byte) : beNat (a ++ [b]) = beNat a * 256 + b.toNat := by
  simp [beNat]

/-- A number written in `w` bytes reads back modulo its range. -/
theorem beNat_toBE (w n : Nat) : beNat (toBE w n) = n % 256 ^ w := by
  induction w generalizing n with
  | zero => simp [toBE, beNat, Nat.mod_one]
  | succ w ih =>
    have hsplit : n % 256 ^ (w + 1) = n % 256 + 256 * (n / 256 % 256 ^ w) := by
      rw [Nat.pow_succ', Nat.mod_mul]
    rw [toBE, beNat_append, ih, BitVec.toNat_ofNat, hsplit]
    omega

/-- The field at the front of a payload. -/
theorem numOf_front (w n : Nat) (b : List Byte) : numOf (toBE w n ++ b) 1 w = n % 256 ^ w := by
  unfold numOf bytesOf
  rw [← beNat_toBE, show (toBE w n ++ b).drop (1 - 1) = toBE w n ++ b from rfl, Nat.add_sub_cancel,
    List.take_left' (toBE_length w n)]

theorem numOf_whole (w n : Nat) : numOf (toBE w n) 1 w = n % 256 ^ w := by
  rw [← List.append_nil (toBE w n), numOf_front]

/-- A field behind the first bytes of a payload. -/
theorem numOf_behind (a b : List Byte) {first last : Nat} (h : a.length < first) :
    numOf (a ++ b) first last = numOf b (first - a.length) (last - a.length) := by
  unfold numOf bytesOf
  rw [List.drop_append, List.drop_eq_nil_of_le (by omega), List.nil_append]
  congr 2
  · omega
  · congr 1
    omega

/-- A field of one byte that fits it. -/
theorem gateStateCode_lt (g : GateState) : gateStateCode g < 256 := by
  unfold gateStateCode
  split <;> decide

theorem bankStatus_length (b : Bank) : (bankStatus b).length = 7 := by
  unfold bankStatus
  split <;> simp [toBE_length]

theorem loaderStatus_length (l : Option Loading) : (loaderStatus l).length = 8 := by
  cases l <;> simp [loaderStatus, toBE_length]

theorem gateStatus_length (s : State) : (gateStatus s).length = 9 := by
  unfold gateStatus
  cases s.store.setup <;> simp [toBE_length]

/-! ### Requests at their owner -/

/-- The event of an open request that is judged. -/
theorem exec_open {r : Request} {f : RingFrame} {s : State} {c : Instr} (h : Judged r f s)
    (ho : isOpenRequest r = true) (hc : exec c s = answered (live (arriveRequest r f) s)) :
    exec c s = .next (settle
      (ownRequest (inHandOf r (frameDest f) f.payload) (requestHeld f s.keyload s))) :=
  exec_settles hc h.running (arriveRequest_open h ho)

/-- The event of a protected request that is accepted uncoded. -/
theorem exec_uncoded {r : Request} {f : RingFrame} {s : State} {c : Instr} (h : Uncoded r f s)
    (ho : isOpenRequest r = false) (hc : exec c s = answered (live (arriveProtected r f true) s)) :
    exec c s = .next (settle
      (ownRequest (inHandOf r (frameDest f) f.payload) (requestHeld f true s))) :=
  exec_settles hc h.running (arriveProtected_uncoded h ho)

theorem descriptor_length (s : State) : (descriptor s).length = 46 := by
  unfold descriptor
  simp only [List.length_append, toBE_length]

theorem statusData_length (s : State) : (statusData s).length = 60 := by
  unfold statusData
  simp only [List.length_append, toBE_length, gateStatus_length, bankStatus_length,
    loaderStatus_length]

theorem countersData_length (c : Counters) : (countersData c).length = 44 := by
  unfold countersData
  simp only [List.length_append, toBE_length]

/-- The device code and the protocol version at the front of the descriptor. -/
theorem descriptor_front (s : State) :
    numOf (descriptor s) 1 2 = 0x2F6E ∧ numOf (descriptor s) 3 4 = 0x0316 := by
  have h : ∃ rest, descriptor s = toBE 2 0x2F6E ++ (toBE 2 0x0316 ++ rest) := by
    unfold descriptor
    simp only [List.append_assoc]
    exact ⟨_, rfl⟩
  obtain ⟨rest, h⟩ := h
  rw [h, numOf_front, numOf_behind _ _ (by rw [toBE_length]; decide), toBE_length, numOf_front]
  decide

theorem statusData_gate (s : State) : numOf (statusData s) 1 1 = gateStateCode (gateState s) := by
  unfold statusData gateStatus
  simp only [List.append_assoc]
  rw [numOf_front]
  exact Nat.mod_eq_of_lt (gateStateCode_lt _)

theorem statusData_lineTime (s : State) :
    numOf (statusData s) 10 13 = s.clock.lineTime % 4294967296 := by
  unfold statusData
  simp only [List.append_assoc]
  rw [numOf_behind _ _ (by rw [gateStatus_length]; decide), gateStatus_length]
  exact numOf_front 4 _ _

theorem statusData_sightings (s : State) :
    numOf (statusData s) 20 21 = s.sightings.length % 65536 := by
  unfold statusData
  simp only [List.append_assoc, numOf_behind, numOf_front, toBE_length, gateStatus_length,
    Nat.reduceLT, Nat.reduceSub, Nat.reducePow]

theorem statusData_records (s : State) :
    numOf (statusData s) 53 54 = s.journal.records.length % 65536 := by
  unfold statusData
  simp only [List.append_assoc, numOf_behind, numOf_front, toBE_length, gateStatus_length,
    bankStatus_length, loaderStatus_length, Nat.reduceLT, Nat.reduceSub, Nat.reducePow]

theorem countersData_fareTotal (c : Counters) :
    numOf (countersData c) 37 44 = c.fareTotal % 18446744073709551616 := by
  unfold countersData
  simp only [List.append_assoc, numOf_behind, numOf_whole, toBE_length, Nat.reduceLT,
    Nat.reduceSub, Nat.reducePow]

/-- The descriptor does not tell of the request that asks it. -/
theorem descriptor_held (f : RingFrame) (s : State) :
    descriptor (requestHeld f s.keyload s) = descriptor s := by
  unfold descriptor
  rw [show (requestHeld f s.keyload s).ring.gateNo = s.ring.gateNo from ringPassing_gateNo f s.ring]

/-- STATUS does not tell of the request that asks it. -/
theorem statusData_held (f : RingFrame) (s : State) :
    statusData (requestHeld f s.keyload s) = statusData s := by
  have hduplicate := ringPassing_duplicate f s.ring
  have hgate : gateState (requestHeld f s.keyload s) = gateState s :=
    gateState_congr rfl rfl rfl rfl rfl rfl hduplicate
  have hjoined : (requestHeld f s.keyload s).ring.joined = s.ring.joined :=
    ringPassing_joined f s.ring
  have hused : insertionUsed (requestHeld f s.keyload s).ring = insertionUsed s.ring := by
    simp [requestHeld, insertionUsed]
  have hflags : lineFlags (requestHeld f s.keyload s) = lineFlags s := by
    unfold lineFlags
    rw [show (requestHeld f s.keyload s).ring.duplicate = s.ring.duplicate from hduplicate]
    rfl
  unfold statusData gateStatus
  rw [hgate, hjoined, hused, hflags]
  rfl

/-- Settles O45: each answer stands in the event of the arrival, and each field at its place. -/
theorem openRequestsAreAnswered : Obligations.OpenRequestsAreAnswered := by
  intro f s
  have hanswer : ∀ (r : Request) (data : List Byte), answerUsed s.ring < 4 →
      answerData r data (requestHeld f s.keyload s) =
        { s with
          ring := ringAnswering r .done data (ringPassing f s.ring)
          decoder := decoderIdle s.decoder } :=
    fun r data place => finishRequest_held .idle r .done data f s.keyload place
  refine ⟨fun h => ?_, fun h => ?_, fun h => ?_, descriptor_length s, statusData_length s,
    countersData_length _, (descriptor_front s).1, (descriptor_front s).2, statusData_gate s,
    statusData_lineTime s, statusData_sightings s, statusData_records s, countersData_fareTotal _⟩
  · rw [exec_open (c := .describe f) h rfl rfl, ← descriptor_held f, ← hanswer _ _ h.place]
    rfl
  · rw [exec_open (c := .status f) h rfl rfl, ← statusData_held f, ← hanswer _ _ h.place]
    rfl
  · rw [exec_open (c := .counters f) h rfl rfl, ← hanswer _ _ h.place]
    rfl

/-- Settles O46. -/
theorem countersClearAndRestart : Obligations.CountersClearAndRestart := by
  intro f s
  refine ⟨fun h => ?_, fun h => ?_⟩
  · rw [exec_uncoded (c := .countersClear f true) h rfl rfl]
    exact congrArg (fun t => Host.Outcome.next (settle t))
      (finishRequest_held (s := { s with journal := { s.journal with counters := Counters.zero } })
        .idle .countersClear .done (countersData s.journal.counters) f true h.place)
  · rw [exec_uncoded (c := .restart f true) h rfl rfl]
    exact congrArg (fun t => Host.Outcome.next (settle t))
      (finishRequest_held .restartPending .restart .done [] f true h.place)

/-! ### SETUP and GATE -/

/-- What the gate state derived anew keeps, shut or not. -/
structure DerivedKeeps (v u : State) : Prop where
  store : u.store = v.store
  duplicate : u.ring.duplicate = v.ring.duplicate
  standing : standing u = standing v
  freeFlag : u.gate.freeFlag = v.gate.freeFlag
  occupancy : u.gate.occupancy = v.gate.occupancy
  gateState : gateState u = gateState v

theorem deriveGate_keeps (v : State) : DerivedKeeps v (deriveGate v) := by
  by_cases h : laneShut v
  · have hl := laneLeft ((laneEmptied_iff h).mpr rfl)
    exact ⟨hl.store, hl.duplicate, hl.standing, by rw [hl.gate], by rw [hl.gate], hl.gateState h⟩
  · rw [deriveGate_open h]
    exact ⟨rfl, rfl, rfl, rfl, rfl, rfl⟩

/-- A place held is filled with the answer of its own event. -/
theorem ringFilling_held {r : Request} {code : AnswerCode} {data : List Byte} {x : Ring}
    (place : answerUsed x < 4) :
    ringFilling r code data { x with held := x.held + 1 } = ringAnswering r code data x := by
  have hplace : x.held + 1 - 1 + x.filled.length < 4 := place
  unfold ringFilling ringAnswering
  dsimp only
  rw [if_pos hplace]
  rfl

theorem answerUsed_ringPassing (f : RingFrame) (r : Ring) :
    answerUsed (ringPassing f r) = answerUsed r := by
  unfold answerUsed
  rw [ringPassing_held, ringPassing_filled]

/-- Settles O47. -/
theorem setupIsWrittenWhole : Obligations.SetupIsWrittenWhole := by
  intro f s h station zone mode service
  have hexec := exec_uncoded (c := .setup f true) h rfl rfl
  refine ⟨fun hbad => ?_, fun m v h1 h2 h3 hm hv => ?_⟩
  · have hnone : setupOf (requestParams f.payload) = none := by
      unfold setupOf
      dsimp only
      split
      · next m v hm hv =>
        refine if_neg ?_
        rintro ⟨h1, h2, h3⟩
        rcases hbad with hb | hb | hb | hb | hb
        · exact absurd h1 (by omega)
        · exact absurd h2 (by omega)
        · exact absurd h3 (by omega)
        · exact absurd (hm.symm.trans hb) nofun
        · exact absurd (hv.symm.trans hb) nofun
      · rfl
    rw [hexec, ← answerCode_uncoded .setup .badValue f h.place]
    show Host.Outcome.next (settle (ownSetup (requestParams f.payload) (requestHeld f true s))) = _
    unfold ownSetup
    rw [hnone]
  · intro written
    have hsome : setupOf (requestParams f.payload) = some ⟨station, zone, m, v⟩ := by
      unfold setupOf
      dsimp only
      rw [show gateModeOf _ = some m from hm, show serviceOf _ = some v from hv]
      exact if_pos ⟨h1, h2, h3⟩
    obtain ⟨u, hu⟩ : ∃ u, u = deriveGate written := ⟨_, rfl⟩
    have hkeeps := deriveGate_keeps written
    rw [← hu] at hkeeps
    have hown : ownRequest (inHandOf .setup (frameDest f) f.payload) (requestHeld f true s) =
        requestAnswered .setup .done u := by
      show ownSetup (requestParams f.payload) (requestHeld f true s) = _
      unfold ownSetup
      rw [hsome]
      dsimp only
      rw [answerCode_eq, hu]
      rfl
    rw [hown] at hexec
    refine ⟨_, hexec, ?_, ?_, ?_, ?_, ?_, ⟨u, rfl, fun hs => (laneEmptied_iff hs).mpr hu,
      fun hs => hu.trans (deriveGate_open hs)⟩, fun hout hfree => ?_, fun hq ht ha => ?_⟩
    · rw [settle_store]; exact hkeeps.store
    · rw [settle_duplicate]; exact hkeeps.duplicate
    · rw [settle_keys]; exact congrArg Standing.keys hkeeps.standing
    · rw [settle_clock]; exact congrArg Standing.clock hkeeps.standing
    · rw [settle_decoder]; rfl
    · have hgate : gateState (requestAnswered .setup .done u) = gateState written :=
        (gateState_congr rfl rfl rfl rfl rfl rfl rfl).trans hkeeps.gateState
      rw [settle_gateState, hgate] at hfree
      have hwritten : gateState written = .outOfService := by
        refine gateState_outOfService hfree ?_
        subst hout
        simp [outOfService, written]
      have hshut : laneShut written := .inl hwritten
      have hleft := laneLeft (grants := s.gate.queue) ((laneEmptied_iff hshut).mpr hu)
      have hgateItems : (requestAnswered .setup .done u).gate = u.gate := rfl
      rw [settle_gateState, hgate, settle_queue, settle_passTimer, settle_alarm,
        (settle_shows _).leaf, settle_gateState, hgate, hwritten, hgateItems, hleft.gate]
      exact ⟨rfl, rfl, rfl, rfl, rfl⟩
    · have hempty : deriveGate written = written := deriveGate_empty hq ht (.inl ha)
      have hring := ringFilling_held (r := .setup) (code := .done) (data := [])
        (x := { ringPassing f s.ring with duplicate := false })
        (Nat.lt_of_le_of_lt (Nat.le_of_eq (answerUsed_ringPassing f s.ring)) h.place)
      rw [hu, hempty]
      unfold requestAnswered
      rw [show written.ring = { { ringPassing f s.ring with duplicate := false } with
        held := ({ ringPassing f s.ring with duplicate := false } : Ring).held + 1 } by
          simp [written], hring]
      rfl

/-- The event of a GATE request that is accepted uncoded, by the action it carries. -/
theorem exec_gate {f : RingFrame} {s : State} {c : Instr} {admits : Nat → Bool} (h : Uncoded .gate f s)
    (ha : admits (numOf (requestParams f.payload) 1 1) = true)
    (hc : exec c s = answered (live (arriveGate admits f true) s)) :
    exec c s = .next (settle (ownGate (requestParams f.payload) (requestHeld f true s))) := by
  refine exec_settles hc h.running ?_
  have hcarries : carriesAction f admits = true := by simp [carriesAction, ha]
  unfold arriveGate
  rw [if_pos hcarries]
  exact arriveProtected_uncoded h rfl

/-- The gate actions (R141). -/
theorem ownGate_action {params : List Byte} {s : State} :
    (numOf params 1 1 = 1 → ownGate params s = answerCode .gate .done (freeOn s)) ∧
    (numOf params 1 1 = 2 → ownGate params s = answerCode .gate .done (freeOff s)) ∧
    (numOf params 1 1 = 3 → ownGate params s = answerCode .gate .done (releaseAlarm s)) ∧
    (numOf params 1 1 < 1 ∨ 3 < numOf params 1 1 →
      ownGate params s = answerCode .gate .badValue s) := by
  unfold ownGate
  refine ⟨fun h => ?_, fun h => ?_, fun h => ?_, fun h => ?_⟩
  · rw [h]; rfl
  · rw [h]; rfl
  · rw [h]; rfl
  · split
    · omega
    · omega
    · omega
    · rfl

/-- ALARM_RELEASE (R138, R141). -/
theorem releaseAlarm_eq (s : State) :
    releaseAlarm s =
      { s with
        gate :=
          if s.gate.alarm = none then { s.gate with occupancy := 0 }
          else
            { s.gate with
              occupancy := 0, alarm := none
              queue := s.gate.queue.map (fun g => { g with entered := false })
              passTimer :=
                match s.gate.passTimer with
                | .paused left => .running left
                | t => if s.gate.queue = [] then t else fullWindow s } } := by
  unfold releaseAlarm
  cases ha : s.gate.alarm with
  | none => rfl
  | some k =>
    refine (clearAlarm_eq (setOccupancy 0 s)).trans ?_
    rw [if_neg nofun]
    rfl

/-- Settles O48, by the action. -/
theorem gateActionsAreTaken : Obligations.GateActionsAreTaken := by
  intro f s h action unmarked
  refine ⟨fun ha => ?on, fun ha => ?off, fun ha => ?release, fun ha => ?other⟩
  case on =>
    obtain ⟨v, hv⟩ : ∃ v : State, v = { s with
      keyload := true
      ring := { ringPassing f s.ring with held := s.ring.held + 1 }
      gate := { s.gate with freeFlag := true } } := ⟨_, rfl⟩
    have hfree : gateState v = .free := gateState_free_iff.mpr (.inr (by rw [hv]))
    have hshut : laneShut v := .inr hfree
    obtain ⟨u, hu⟩ : ∃ u, u = deriveGate v := ⟨_, rfl⟩
    have hqueue : v.gate.queue = s.gate.queue := by rw [hv]
    have hempty : LaneEmptied v s.gate.queue u := hqueue ▸ (laneEmptied_iff hshut).mpr hu
    have hleft := laneLeft hempty
    have hgate : gateState (requestAnswered .gate .done u) = .free :=
      (gateState_congr rfl rfl rfl rfl rfl rfl rfl).trans ((hleft.gateState hshut).trans hfree)
    have hown : ownGate (requestParams f.payload) (requestHeld f true s) =
        requestAnswered .gate .done u := by
      rw [ownGate_action.1 ha, answerCode_eq, hu, hv]
      rfl
    have hexec := exec_gate (c := .gateFreeOn f true) (admits := fun a => decide (a = 1)) h
      (decide_eq_true ha) rfl
    rw [hown] at hexec
    have hgateItems : (requestAnswered .gate .done u).gate = u.gate := rfl
    refine ⟨_, hexec, ?_, ?_, ?_, ?_, ?_, ⟨u, hv ▸ hempty, rfl⟩, fun hidle => ?_, ?_, ?_, ?_, ?_⟩
    · rw [settle_freeFlag, hgateItems, hleft.gate, hv]
    · rw [settle_gateState, hgate]
    · rw [settle_queue, hgateItems, hleft.gate]
    · rw [settle_passTimer, hgateItems, hleft.gate]
    · rw [settle_alarm, hgateItems, hleft.gate, hv]
    · have hoffered : unusedOffered v true = unusedOffered s true := by
        funext j g
        unfold unusedOffered
        rw [hv]
        dsimp only
        rw [ringPassing_gateNo]
      obtain ⟨hj, -, ht, -⟩ :=
        laneEmptied_idle hempty (fun g hg => by rw [hv]; exact hidle g hg)
      rw [settle_journal, settle_taps]
      refine ⟨hj.trans ?_, ht.trans ?_⟩
      · rw [hfree, decide_eq_true rfl, hoffered, hv]
      · rw [hv]
    · rw [(settle_shows _).leaf, settle_gateState, hgate]; rfl
    · rw [settle_keys]
      refine (congrArg Standing.keys hleft.standing).trans ?_
      rw [hv]; rfl
    · rw [settle_store]
      refine hleft.store.trans ?_
      rw [hv]
    · rw [settle_decoder]; rfl
  case off =>
    obtain ⟨v, hv⟩ : ∃ v : State, v = { requestHeld f true s with
      gate := { s.gate with freeFlag := false } } := ⟨_, rfl⟩
    have hkeeps := deriveGate_keeps v
    have hown : ownGate (requestParams f.payload) (requestHeld f true s) =
        requestAnswered .gate .done (deriveGate v) := by
      rw [ownGate_action.2.1 ha, answerCode_eq, hv]
      rfl
    have hexec := exec_gate (c := .gateFreeOff f true) (admits := fun a => decide (a = 2)) h
      (decide_eq_true ha) rfl
    rw [hown] at hexec
    refine ⟨_, hexec, ?_, ?_, ?_, ?_, ?_, ?_⟩
    · rw [settle_freeFlag]
      refine hkeeps.freeFlag.trans ?_
      rw [hv]
    · rw [settle_gateState]
      refine ((gateState_congr rfl rfl rfl rfl rfl rfl rfl).trans hkeeps.gateState).trans ?_
      rw [hv]
      exact gateState_congr rfl rfl rfl rfl rfl rfl (ringPassing_duplicate f s.ring)
    · rw [settle_occupancy]
      refine hkeeps.occupancy.trans ?_
      rw [hv]
    · rw [settle_keys]
      refine (congrArg Standing.keys hkeeps.standing).trans ?_
      rw [hv]; rfl
    · rw [settle_store]
      refine hkeeps.store.trans ?_
      rw [hv]; rfl
    · rw [settle_decoder]; rfl
  case release =>
    rw [exec_gate (c := .gateAlarmRelease f true) (admits := fun a => decide (a = 3)) h
      (decide_eq_true ha) rfl, ownGate_action.2.2.1 ha, releaseAlarm_eq]
    exact congrArg (fun t => Host.Outcome.next (settle t))
      (answerCode_uncoded (s := { s with gate := _ }) .gate .done f h.place)
  case other =>
    rw [exec_gate (c := .gateActionBadValue f true) (admits := fun a => !decide (1 ≤ a ∧ a ≤ 3)) h
      ?_ rfl, ownGate_action.2.2.2 ha, answerCode_uncoded .gate .badValue f h.place]
    simp only [Bool.not_eq_true', decide_eq_false_iff_not]
    omega

end Sys2Proof.Machine

/-! ## Management requests: loads, keys and protection (O49 to O55) -/

namespace Sys2Proof.Machine

/-! ### Loads -/

/-- A load in progress broken off, or nothing where none is. -/
def loadBroken (s : State) : State :=
  match s.loader with
  | none => s
  | some l => loadDiscarded l s

theorem loadBroken_some {s : State} {l : Loading} (h : s.loader = some l) :
    loadBroken s = loadDiscarded l s := by
  unfold loadBroken
  rw [h]

theorem loadBroken_ring (s : State) : (loadBroken s).ring = s.ring := by
  unfold loadBroken
  split
  · rfl
  · unfold loadDiscarded
    split <;> rfl

/-- A load is broken off whatever the request that breaks it. -/
theorem breakOff_held (f : RingFrame) (s : State) :
    breakOff (requestHeld f true s) = requestHeld f true (loadBroken s) := by
  cases hl : s.loader with
  | none =>
    unfold breakOff loadBroken
    rw [show (requestHeld f true s).loader = none from hl, hl]
  | some l =>
    rw [breakOff_eq (s := requestHeld f true s) (l := l) hl, loadBroken_some hl]
    unfold loadDiscarded
    cases l.kind <;> rfl

/-- The kinds of a load (R170). -/
theorem loadKindOf_none {n : Nat} (h : n < 1 ∨ 3 < n) : loadKindOf n = none := by
  unfold loadKindOf
  split
  · omega
  · omega
  · omega
  · rfl

/-- Settles O49: the load in progress broken off, then kind, length and destination. -/
theorem loadBeginOpensADestination : Obligations.LoadBeginOpensADestination := by
  intro f s₀ h s kind length answered next
  have hs : s = loadBroken s₀ := rfl
  have hplace : answerUsed s.ring < 4 := by rw [hs, loadBroken_ring]; exact h.place
  have howner : ∀ t, ownLoadBegin (requestParams f.payload) (requestHeld f true s₀) = t → next t :=
    fun t ht => (exec_uncoded (c := .loadBegin f true) h rfl rfl).trans
      (congrArg (fun t => Host.Outcome.next (settle t)) ht)
  have hcode : ∀ code, answerCode .loadBegin code (requestHeld f true s) = answered code :=
    fun code => answerCode_uncoded .loadBegin code f hplace
  have hkind : ∀ k, loadKindOf kind = some k →
      ownLoadBegin (requestParams f.payload) (requestHeld f true s₀) =
        if length = 0 ∨ maxImage k < length then answered .badValue
        else beginAt k length (requestHeld f true s) := fun k hk => by
    unfold ownLoadBegin
    rw [show loadKindOf (numOf (requestParams f.payload) 1 1) = some k from hk, breakOff_held, ← hs]
    dsimp only
    rw [hcode]
  have hbad : ∀ k, loadKindOf kind = some k → (length = 0 ∨ maxImage k < length) →
      next (answered .badValue) := fun k hk hl => howner _ ((hkind k hk).trans (if_pos hl))
  have hgood : ∀ k t, loadKindOf kind = some k → 1 ≤ length → length ≤ maxImage k →
      beginAt k length (requestHeld f true s) = t → next t := fun k t hk h1 h2 ht =>
    howner _ (((hkind k hk).trans (if_neg (by omega))).trans ht)
  have hk : ∀ n k, loadKindOf n = some k → kind = n → loadKindOf kind = some k :=
    fun n k h e => e ▸ h
  refine ⟨fun hn => howner _ ?_, fun e => hbad .fare (hk 1 _ rfl e), fun e => hbad .full (hk 2 _ rfl e),
    fun e => hbad .delta (hk 3 _ rfl e), fun e h1 h2 => hgood .fare _ (hk 1 _ rfl e) h1 h2 ?_,
    fun e h1 h2 => hgood .full _ (hk 2 _ rfl e) h1 h2 ?_,
    fun e h1 h2 => hgood .delta _ (hk 3 _ rfl e) h1 h2 ?_⟩
  · unfold ownLoadBegin
    rw [show loadKindOf (numOf (requestParams f.payload) 1 1) = none from loadKindOf_none hn,
      breakOff_held, ← hs]
    exact hcode .badValue
  · unfold beginAt beginLoad
    dsimp only
    rw [hcode]
    refine congrArg (fun t => ite _ _ t) ?_
    exact answerCode_uncoded (s := { s with
      loader := some ⟨.fare, loadBank s.store, length, 0, .data⟩
      store := setBank (loadBank s.store) Bank.cold s.store }) .loadBegin .done f hplace
  · unfold beginAt beginLoad
    dsimp only
    rw [hcode]
    refine congrArg (fun t => ite _ t _) ?_
    exact answerCode_uncoded (s := { s with
      loader := some ⟨.full, .x, length, 0, .data⟩
      hot := { setShadow [] s.hot with shadow := .loading, image := [] } }) .loadBegin .done f hplace
  · unfold beginAt beginLoad
    dsimp only
    rw [hcode]
    refine congrArg (fun t => ite _ _ t) ?_
    exact answerCode_uncoded (s := { s with
      loader := some ⟨.delta, .x, length, 0, .data⟩
      hot := { s.hot with deltaCond := .receiving, deltaOps := [], image := [] } }) .loadBegin .done f
      hplace

/-- The load that a request breaks off is discarded, whatever the request is answered. -/
theorem answerCode_discarded {s : State} {l : Loading} (r : Request) (code : AnswerCode) (f : RingFrame)
    (place : answerUsed s.ring < 4) (hl : s.loader = some l) :
    answerCode r code (breakOff (requestHeld f true s)) =
      loadDiscarded l (uncodedAnswered r code [] f s) := by
  rw [breakOff_held, answerCode_uncoded _ _ _ (by rw [loadBroken_ring]; exact place),
    loadBroken_some hl]
  unfold loadDiscarded
  cases l.kind <;> rfl

/-- Settles O50. -/
theorem loadDataAndEndInSequence : Obligations.LoadDataAndEndInSequence := by
  intro f s offset data
  have hdata : Uncoded .loadData f s → ∀ t,
      ownLoadData (inHandOf .loadData (frameDest f) f.payload) (requestHeld f true s) = t →
      exec (.loadData f true) s = .next (settle t) := fun h t ht =>
    (exec_uncoded (c := .loadData f true) h rfl rfl).trans
      (congrArg (fun t => Host.Outcome.next (settle t)) ht)
  have hend : Uncoded .loadEnd f s → ∀ t,
      ownLoadEnd (inHandOf .loadEnd (frameDest f) f.payload) (requestHeld f true s) = t →
      exec (.loadEnd f true) s = .next (settle t) := fun h t ht =>
    (exec_uncoded (c := .loadEnd f true) h rfl rfl).trans
      (congrArg (fun t => Host.Outcome.next (settle t)) ht)
  refine ⟨fun h hl => hdata h _ ?_, fun h hl => hend h _ ?_, fun l hl =>
    ⟨fun h ho hlen => hdata h _ ?_, fun h hbad => hdata h _ ?_, fun h hlen => hend h _ ?_,
      fun h hlen => hend h _ ?_⟩⟩
  · unfold ownLoadData
    rw [show (requestHeld f true s).loader = none from hl]
    exact answerCode_uncoded .loadData .badSequence f h.place
  · unfold ownLoadEnd
    rw [show (requestHeld f true s).loader = none from hl]
    exact answerCode_uncoded .loadEnd .badSequence f h.place
  · unfold ownLoadData
    rw [show (requestHeld f true s).loader = some l from hl]
    exact if_pos ⟨ho, hlen⟩
  · unfold ownLoadData
    rw [show (requestHeld f true s).loader = some l from hl]
    refine (if_neg ?_).trans (answerCode_discarded .loadData .badSequence f h.place hl)
    rintro ⟨ho, hlen⟩
    rcases hbad with hb | hb
    · exact hb ho
    · exact absurd hlen (Nat.not_le.mpr hb)
  · unfold ownLoadEnd
    rw [show (requestHeld f true s).loader = some l from hl]
    exact if_pos hlen
  · unfold ownLoadEnd
    rw [show (requestHeld f true s).loader = some l from hl]
    exact (if_neg hlen).trans (answerCode_discarded .loadEnd .badSequence f h.place hl)

/-! ### Keys -/

/-- Settles O51. -/
theorem keyChangesAreAsked : Obligations.KeyChangesAreAsked := by
  intro f s params slot
  refine ⟨fun h => ?_, fun h => ?_⟩
  · intro answered
    have howner : ∀ t,
        ownKeyWrite (inHandOf .keyWrite (frameDest f) f.payload) (requestHeld f true s) = t →
        exec (.keyWrite f true) s = .next (settle t) := fun t ht =>
      (exec_uncoded (c := .keyWrite f true) h rfl rfl).trans
        (congrArg (fun t => Host.Outcome.next (settle t)) ht)
    have hcode := fun code => answerCode_uncoded .keyWrite code f h.place
    have hslot : slot ≤ 7 → ∀ t, (match slotAt s slot with
        | .locked _ => answerCode .keyWrite .slotLocked (requestHeld f true s)
        | _ =>
          match keyRoleOf (numOf params 2 2) with
          | none => answerCode .keyWrite .badValue (requestHeld f true s)
          | some role =>
            askChange (inHandOf .keyWrite (frameDest f) f.payload) slot
              (.loaded
                { key := BitVec.ofNat 128 (numOf params 4 19), role := role
                  version := numOf params 3 3 }) (requestHeld f true s)) = t →
        exec (.keyWrite f true) s = .next (settle t) := fun hs t ht =>
      howner t ((if_neg (Nat.not_lt.mpr hs)).trans ht)
    refine ⟨fun hs => howner _ ((if_pos hs).trans (hcode .badValue)), fun e hs he => hslot hs _ ?_,
      fun hs he hr => hslot hs _ ?_, fun role hs he hr => hslot hs _ ?_⟩
    · rw [he]
      exact hcode .slotLocked
    · split
      · next e hl => exact absurd hl (he e)
      · rw [hr]
        exact hcode .badValue
    · split
      · next e hl => exact absurd hl (he e)
      · rw [hr]
        rfl
  · intro answered
    have howner : ∀ t,
        ownKeyLock (inHandOf .keyLock (frameDest f) f.payload) (requestHeld f true s) = t →
        exec (.keyLock f true) s = .next (settle t) := fun t ht =>
      (exec_uncoded (c := .keyLock f true) h rfl rfl).trans
        (congrArg (fun t => Host.Outcome.next (settle t)) ht)
    have hcode := fun code => answerCode_uncoded .keyLock code f h.place
    have hslot : slot ≤ 7 → ∀ t, (match slotAt s slot with
        | .empty => answerCode .keyLock .badValue (requestHeld f true s)
        | .locked _ => answerCode .keyLock .slotLocked (requestHeld f true s)
        | .loaded e =>
          askChange (inHandOf .keyLock (frameDest f) f.payload) slot (.locked e)
            (requestHeld f true s)) = t →
        exec (.keyLock f true) s = .next (settle t) := fun hs t ht =>
      howner t ((if_neg (Nat.not_lt.mpr hs)).trans ht)
    refine ⟨fun hs => ?_, fun e hs he => hslot hs _ ?_, fun e hs he => hslot hs _ ?_⟩
    · by_cases hbig : 7 < slot
      · exact howner _ ((if_pos hbig).trans (hcode .badValue))
      · have he : slotAt s slot = .empty := hs.resolve_left hbig
        refine hslot (Nat.not_lt.mp hbig) _ ?_
        rw [he]
        exact hcode .badValue
    · rw [he]
      exact hcode .slotLocked
    · rw [he]
      rfl

/-- A slot that is not LOCKED holds what is written to it. -/
theorem slotAt_writeSlot_same {n : Nat} (k : KeySlot) {s : State} (hn : n ≤ 7)
    (hfree : ∀ e, slotAt s n ≠ .locked e) : slotAt (writeSlot n k s) n = k := by
  unfold writeSlot
  split
  · next e he => exact absurd he (hfree e)
  · have hlen : n < 8 := by omega
    simp [slotAt, hlen]

/-- Every other slot stands. -/
theorem slotAt_writeSlot_other {n m : Nat} (k : KeySlot) (s : State) (h : m ≠ n) :
    slotAt (writeSlot n k s) m = slotAt s m :=
  (slotAt_writeSlot n m k s).resolve_right fun hm => h hm.1

/-- A write changes the key slots alone. -/
theorem writeSlot_eq (n : Nat) (k : KeySlot) (s : State) :
    writeSlot n k s = { s with keys := (writeSlot n k s).keys } := by
  unfold writeSlot
  split <;> rfl

/-- The request in hand answered with data. -/
theorem finishRequest_eq (next : DecoderState) (r : Request) (code : AnswerCode) (data : List Byte)
    (s : State) :
    finishRequest next r code data s =
      { s with
        decoder := { decoderIdle s.decoder with state := next }
        ring := ringFilling r code data s.ring } := by
  unfold finishRequest fillAnswer ringFilling modRing modDecoder answerUsed
  dsimp only
  split <;> rfl

/-- The answer data of a slot that holds a key. -/
theorem slotData_eq (slot : Nat) (e : KeyEntry) (isLock : Bool) :
    slotData slot (if isLock then .locked e else .loaded e) =
      [BitVec.ofNat 8 slot, BitVec.ofNat 8 (keyRoleCode e.role), BitVec.ofNat 8 e.version,
        if isLock then 2 else 1] := by
  cases isLock <;> rfl

/-- Settles O52. -/
theorem keyChangeCompletes : Obligations.KeyChangeCompletes := by
  intro h slot e isLock s hp hh hn hfree hc
  obtain ⟨w, hw⟩ : ∃ w, w = writeSlot slot (if isLock then .locked e else .loaded e)
    { s with decoder := { s.decoder with change := none } } := ⟨_, rfl⟩
  have hsame : slotAt w slot = if isLock then .locked e else .loaded e :=
    hw ▸ slotAt_writeSlot_same _ hn hfree
  have hdone : changeDone s = answerData h.request (slotData slot (slotAt w slot)) w := by
    unfold changeDone
    rw [hc, hh, hw]
    rfl
  have heq : w = { s with keys := w.keys, decoder := { s.decoder with change := none } } := by
    rw [hw]
    exact writeSlot_eq _ _ _
  have hresult : changeDone s =
      { s with
        keys := w.keys, decoder := { state := .idle, inHand := none, change := none }
        ring := ringFilling h.request .done
          [BitVec.ofNat 8 slot, BitVec.ofNat 8 (keyRoleCode e.role), BitVec.ofNat 8 e.version,
            if isLock then 2 else 1] s.ring } := by
    rw [hdone, hsame, slotData_eq]
    refine (finishRequest_eq _ _ _ _ _).trans ?_
    rw [heq]
    rfl
  have hslot : ∀ n, slotAt (settle (changeDone s)) n = slotAt w n := fun n => by
    unfold slotAt
    rw [settle_keys, hresult]
  refine ⟨_, exec_settles (f := changeDone) rfl hp rfl, (hslot slot).trans hsame, fun n hne => ?_, ?_⟩
  · rw [hslot, hw]
    exact slotAt_writeSlot_other _ _ hne
  · rw [settle_keys, hresult]

/-! ### The checks of a request (R187, R198, R199) -/

theorem requestCode_of {n : Nat} {r : Request} (h : requestOf n = some r) : requestCode r = n := by
  unfold requestOf at h
  split at h <;> cases h <;> rfl

/-- The event of an open request. -/
theorem exec_requestCommand_open {r : Request} {f : RingFrame} {k : Bool} {s : State}
    (hp : s.power = .running) (ho : isOpenRequest r = true) :
    exec (requestCommand r f k) s = .next (settle (arriveRequest r f s)) := by
  cases r with
  | describe => exact exec_settles (f := arriveRequest .describe f) rfl hp rfl
  | status => exact exec_settles (f := arriveRequest .status f) rfl hp rfl
  | counters => exact exec_settles (f := arriveRequest .counters f) rfl hp rfl
  | _ => exact absurd ho Bool.false_ne_true

/-- The event of a protected request, whose command a GATE request has by its action. -/
theorem exec_requestCommand_protected {r : Request} {f : RingFrame} {k : Bool} {s : State}
    (hp : s.power = .running) (ho : isOpenRequest r = false) :
    exec (requestCommand r f k) s = .next (settle (arriveProtected r f k s)) := by
  have hgate : ∀ {c : Instr} {admits : Nat → Bool},
      exec c s = answered (live (arriveGate admits f k) s) →
      admits (numOf (requestParams f.payload) 1 1) = true →
      exec c s = .next (settle (arriveProtected .gate f k s)) := fun {c admits} hc ha => by
    refine exec_settles hc hp ?_
    unfold arriveGate
    rw [if_pos]
    simp [carriesAction, ha]
  cases r with
  | describe => exact absurd ho.symm Bool.false_ne_true
  | status => exact absurd ho.symm Bool.false_ne_true
  | counters => exact absurd ho.symm Bool.false_ne_true
  | gate =>
    unfold requestCommand
    dsimp only
    split
    · next h => exact hgate (admits := fun a => decide (a = 1)) rfl (by simp [h])
    · next h => exact hgate (admits := fun a => decide (a = 2)) rfl (by simp [h])
    · next h => exact hgate (admits := fun a => decide (a = 3)) rfl (by simp [h])
    · next h1 h2 h3 =>
      have hother : ¬ (1 ≤ numOf (requestParams f.payload) 1 1 ∧
          numOf (requestParams f.payload) 1 1 ≤ 3) := by
        have h1 : numOf (requestParams f.payload) 1 1 ≠ 1 := h1
        have h2 : numOf (requestParams f.payload) 1 1 ≠ 2 := h2
        have h3 : numOf (requestParams f.payload) 1 1 ≠ 3 := h3
        omega
      exact hgate (admits := fun a => !decide (1 ≤ a ∧ a ≤ 3)) rfl (by rw [decide_eq_false hother]; rfl)
  | countersClear => exact exec_settles (f := arriveProtected .countersClear f k) rfl hp rfl
  | setup => exact exec_settles (f := arriveProtected .setup f k) rfl hp rfl
  | restart => exact exec_settles (f := arriveProtected .restart f k) rfl hp rfl
  | loadBegin => exact exec_settles (f := arriveProtected .loadBegin f k) rfl hp rfl
  | loadData => exact exec_settles (f := arriveProtected .loadData f k) rfl hp rfl
  | loadEnd => exact exec_settles (f := arriveProtected .loadEnd f k) rfl hp rfl
  | keyWrite => exact exec_settles (f := arriveProtected .keyWrite f k) rfl hp rfl
  | keyLock => exact exec_settles (f := arriveProtected .keyLock f k) rfl hp rfl

/-- The KEYLOAD pin is sampled by a protected request alone (R187). -/
theorem exec_requestCommand {r : Request} {f : RingFrame} {k : Bool} {s : State}
    (hp : s.power = .running) :
    exec (requestCommand r f k) s = .next (settle
      (arriveRequest r f { s with keyload := if isOpenRequest r then s.keyload else k })) := by
  cases ho : isOpenRequest r with
  | true => exact exec_requestCommand_open hp ho
  | false => exact exec_requestCommand_protected hp ho

/-- An answer in the event of an arrival fills the place held for it. -/
theorem fillAnswer_held (b : Byte) (code : AnswerCode) (data : List Byte) (f : RingFrame) (k : Bool)
    {s : State} (place : answerUsed s.ring < 4) :
    fillAnswer b code data (requestHeld f k s) =
      { s with
        keyload := k
        ring :=
          { ringPassing f s.ring with
            filled := s.ring.filled ++ [answerFrame s.ring.gateNo b code data] } } := by
  unfold answerUsed at place
  simp [fillAnswer, modRing, requestHeld, answerUsed, place]

theorem receiveRequest_place {f : RingFrame} {judge : State → State} {s : State}
    (place : answerUsed s.ring < 4) :
    receiveRequest f judge s = handRequest f judge (requestHeld f s.keyload s) := by
  have e : holdPlace (forwardIfAll f s) = requestHeld f s.keyload s := by
    rw [forwardIfAll_ring]
    simp [holdPlace, modRing, requestHeld]
  unfold receiveRequest
  simp only [place, if_true, e]

/-- An answer behind those that stood before the request passed. -/
theorem ringAnswering_passing (r : Request) (code : AnswerCode) (data : List Byte) (f : RingFrame)
    (x : Ring) :
    ringAnswering r code data (ringPassing f x) =
      { ringPassing f x with
        filled := x.filled ++ [answerFrame x.gateNo (BitVec.ofNat 8 (requestCode r)) code data] } := by
  have hfilled : (ringPassing f x).filled ++
      [answerFrame (ringPassing f x).gateNo (BitVec.ofNat 8 (requestCode r)) code data] =
      x.filled ++ [answerFrame x.gateNo (BitVec.ofNat 8 (requestCode r)) code data] := by
    rw [ringPassing_filled, ringPassing_gateNo]
  exact congrArg (fun l => { ringPassing f x with filled := l }) hfilled

/-- Settles O53. -/
theorem unknownBadLengthAndBusy : Obligations.UnknownBadLengthAndBusy := by
  intro r f keyload s hp hplace hr hs ht
  refine ⟨fun hnone => ?unknown, fun hsome => ?known⟩
  case unknown =>
    refine exec_settles (f := arriveUnknown f) rfl hp ?_
    unfold arriveUnknown
    rw [if_pos (by simp [hr, hs, ht, hnone]), receiveRequest_place hplace]
    unfold handRequest judgeUnknown
    rw [show (requestHeld f s.keyload s).decoder.state = s.decoder.state from rfl,
      fillAnswer_held _ _ _ _ _ hplace, fillAnswer_held _ _ _ _ _ hplace]
    by_cases hi : s.decoder.state = .idle
    · rw [if_pos hi, if_neg (show ¬ ¬ s.decoder.state = .idle from fun hn => hn hi)]
      simp [List.isEmpty_iff]
    · rw [if_neg hi, if_pos hi]
  case known =>
    intro pin
    have harrives : requestArrives { s with keyload := pin } r f = true := by
      have hr' : receives { s with keyload := pin } f = true := hr
      have hs' : strips { s with keyload := pin } f = false := hs
      have ht' : takesRequest { s with keyload := pin } f = true := ht
      simp [requestArrives, hr', hs', ht', hsome]
    have hcode := requestCode_of hsome
    refine ⟨fun hbusy => ?_, fun hidle hlen => ?_⟩
    · rw [exec_requestCommand hp]
      refine congrArg (fun t => Host.Outcome.next (settle t)) ?_
      unfold arriveRequest
      rw [if_pos harrives, receiveRequest_place (s := { s with keyload := pin }) hplace]
      refine (if_neg hbusy).trans ((fillAnswer_held (s := { s with keyload := pin })
        _ _ _ _ _ hplace).trans ?_)
      rw [ringAnswering_passing, hcode]
    · rw [exec_requestCommand hp]
      refine congrArg (fun t => Host.Outcome.next (settle t)) ?_
      rw [arriveRequest_idle (s := { s with keyload := pin }) harrives hplace hidle]
      unfold judgeRequest
      rw [hlen]
      exact finishRequest_held (s := { s with keyload := pin }) .idle r .badValue [] f pin hplace

/-- Settles O54. -/
theorem protectionComesBeforeTheOwner : Obligations.ProtectionComesBeforeTheOwner := by
  intro r f keyload s h ho time answered
  have hexec := exec_requestCommand_protected (f := f) (k := keyload) h.running ho
  rw [arriveProtected_judged keyload h ho] at hexec
  have hcode : ∀ code, answerCode r code (requestHeld f keyload s) =
      { s with
        keyload := keyload, ring := ringAnswering r code [] (ringPassing f s.ring)
        decoder := decoderIdle s.decoder } :=
    fun code => finishRequest_held .idle r code [] f keyload h.place
  have hprotect : ∀ t, protect (inHandOf r (frameDest f) f.payload) (requestHeld f keyload s) = t →
      exec (requestCommand r f keyload) s = .next (settle t) := fun t ht =>
    hexec.trans (congrArg (fun t => Host.Outcome.next (settle t)) ht)
  have hfresh : fresh s time = true ↔
      s.clock.isSet = true ∧ time ≤ s.clock.lineTime + 10 ∧ s.clock.lineTime ≤ time + 10 := by
    simp [fresh, and_assoc]
  refine ⟨fun hk hpin => hprotect _ ?_, fun key hk hstale => hprotect _ ?_,
    fun key hk hset h1 h2 => hprotect _ ?_⟩
  · unfold protect
    rw [requestHeld_lineKey, hk]
    exact (if_neg (by simp [hpin])).trans (hcode .unprotected)
  · have hnot : ¬ fresh s time = true := by
      rw [hfresh]
      rintro ⟨hset, h1, h2⟩
      rcases hstale with hs | hs | hs
      · exact Bool.false_ne_true (hs.symm.trans hset)
      · omega
      · omega
    unfold protect
    rw [requestHeld_lineKey, hk]
    exact (if_neg hnot).trans (hcode .stale)
  · unfold protect
    rw [requestHeld_lineKey, hk]
    exact if_pos (hfresh.mpr ⟨hset, h1, h2⟩)

/-! ### The ring engine (R184, R185, R187) -/

/-- Settles O55: a line code, and then the owner, or a table code, and then the contents. -/
theorem ringEngineResultIsJudged : Obligations.RingEngineResultIsJudged := by
  intro h key keyload s hp hh coded idle next
  have hdone : ∀ job t, s.ringEngine = some job → ringEngineDone job { s with keyload := keyload } = t →
      next t := fun job t hj ht => by
    refine exec_settles (f := engineCompletes .ring keyload) rfl hp ?_
    unfold engineCompletes
    dsimp only
    split
    · next job' hj' => rwa [Option.some.inj (hj'.symm.trans hj)]
    · next hn => cases hn.symm.trans hj
  have hcode : ∀ code t, answerCode h.request code t =
      { t with decoder := decoderIdle t.decoder, ring := ringFilling h.request code [] t.ring } :=
    fun code t => answerCode_eq h.request code t
  have hverify : ∀ t, s.ringEngine = some (.lineCode key) → h.code = codeOf 8 key (lineCodeInput h) →
      strapCheck coded idle = t → next t := fun t hj hc ht => by
    refine hdone _ t hj ?_
    show verifyLine key idle = t
    unfold verifyLine
    rw [show idle.decoder.inHand = some h from hh]
    exact (if_pos hc).trans ht
  have hstrap : needsStrap h.request = true ↔ h.request ∈ [Request.keyWrite, .keyLock] := by
    cases h.request <;> simp [needsStrap]
  have howner : ∀ t, s.ringEngine = some (.lineCode key) → h.code = codeOf 8 key (lineCodeInput h) →
      (h.request ∉ [Request.keyWrite, .keyLock] ∨ keyload = true) → ownRequest coded idle = t →
      next t := fun t hj hc hpass ht => by
    refine hverify t hj hc ((if_neg ?_).trans ht)
    show ¬ (needsStrap h.request && !keyload) = true
    rw [Bool.and_eq_true]
    rintro ⟨hn, hpin⟩
    rcases hpass with hr | hk
    · exact hr (hstrap.mp hn)
    · simp [hk] at hpin
  have hfree : ∀ r, h.request = r → needsStrap r = false →
      h.request ∉ [Request.keyWrite, .keyLock] := fun r hr hn hm => by
    rw [← hstrap, hr, hn] at hm
    exact Bool.false_ne_true hm
  refine ⟨fun hj hc => hdone _ _ hj ?_, fun hj hc => ⟨fun hr hpin => hverify _ hj hc ?_,
    fun hpass => howner _ hj hc hpass rfl,
    fun hr => howner _ hj hc (.inl (hfree _ hr rfl)) ?_,
    fun hr => howner _ hj hc (.inl (hfree _ hr rfl)) ?_,
    fun role hr hpin hslot hlocked hrole => howner _ hj hc (.inr hpin) ?_,
    fun l k hr hl hlen hk => howner _ hj hc (.inl (hfree _ hr rfl)) ?_⟩,
    fun l read hj hl => ⟨fun hphase => hdone _ _ hj ?_, fun hphase hc => hdone _ _ hj ?_,
      fun hphase hc => hdone _ _ hj ?_⟩⟩
  · show verifyLine key idle = _
    unfold verifyLine
    rw [show idle.decoder.inHand = some h from hh]
    exact (if_neg hc).trans (hcode .unprotected idle)
  · refine (if_pos ?_).trans (hcode .noStrap idle)
    show (needsStrap h.request && !keyload) = true
    rw [hstrap.mpr hr, hpin]
    rfl
  · unfold ownRequest
    rw [show coded.request = .restart from hr]
    exact finishRequest_eq .restartPending .restart .done [] idle
  · unfold ownRequest
    rw [show coded.request = .countersClear from hr]
    exact finishRequest_eq .idle .countersClear .done (countersData s.journal.counters)
      (modCounters (fun _ => Counters.zero) idle)
  · unfold ownRequest
    rw [show coded.request = .keyWrite from hr]
    show ownKeyWrite coded idle = _
    unfold ownKeyWrite
    refine (if_neg (Nat.not_lt.mpr hslot)).trans ?_
    split
    · next e he => exact absurd he (hlocked e)
    · rw [show keyRoleOf (numOf coded.params 2 2) = some role from hrole]
      rfl
  · unfold ownRequest
    rw [show coded.request = .loadEnd from hr]
    show ownLoadEnd coded idle = _
    unfold ownLoadEnd
    rw [show idle.loader = some l from hl]
    refine (if_pos hlen).trans ((if_pos rfl).trans ?_)
    rw [show lineKey idle = some k from hk]
    rfl
  · refine if_neg ?_
    show ¬ tableRead s = true
    unfold tableRead
    rw [hl]
    simpa using hphase
  · have hread : tableRead s = true := by
      unfold tableRead
      rw [hl]
      simpa using hphase
    refine (if_pos hread).trans ?_
    show verifyTable key read idle = _
    unfold verifyTable
    rw [show idle.loader = some l from hl, show idle.decoder.inHand = some h from hh]
    exact if_pos hc
  · have hread : tableRead s = true := by
      unfold tableRead
      rw [hl]
      simpa using hphase
    refine (if_pos hread).trans ?_
    show verifyTable key read idle = _
    unfold verifyTable
    rw [show idle.loader = some l from hl, show idle.decoder.inHand = some h from hh]
    exact (if_neg hc).trans (failLoad_eq (s := idle) .tableInvalid hl)

end Sys2Proof.Machine

/-! ## The clone check, repeater mode, power and the cold start (O57, O58, O60) -/

namespace Sys2Proof.Machine

/-- Settles O60, by the kind of the sighting. -/
theorem cloneCheckFinds : Obligations.CloneCheckFinds := by
  intro t src x
  refine ⟨fun hk => ⟨?_, fun ht => ?_⟩, fun hk => ?_, fun hk => ?_, fun hk => ?_, ?_, ?_,
    fun s sd d hd => ?_⟩
  · unfold cloneCheck cloneFound
    rw [hk]
    simp
  · unfold cloneCheck cloneFound findingReason
    rw [hk]
    exact if_pos (decide_eq_true ht)
  · unfold cloneCheck cloneFound findingReason
    rw [hk]
    simp
  · unfold cloneCheck cloneFound findingReason
    rw [hk]
    simp
  · unfold cloneCheck cloneFound findingReason
    rw [hk]
    simp
  · unfold claimCheck cloneCheck
    rfl
  · unfold claimCheck findingReason
    cases x.kind <;> simp
  · unfold checkedTc
    rw [hd]

/-! ### Repeater mode, RST and power -/

/-- With no change under way nothing is resolved. -/
theorem resolveChange_none {s : State} (h : s.decoder.change = none) : resolveChange s = s := by
  unfold resolveChange
  rw [h]

/-- A change cut off touches the key slots, the free values and the decoder alone. -/
theorem resolveChange_eq (s : State) :
    resolveChange s =
      { s with
        decoder := { s.decoder with change := none }
        keys := (resolveChange s).keys, draws := (resolveChange s).draws } := by
  unfold resolveChange
  dsimp only
  split
  · next h => rw [← h]
  split
  · unfold writeSlot
    split <;> rfl
  · rfl

/-- A slot whose change is cut off holds its contents from before or after it; every other slot stands. -/
theorem resolveChange_slotAt {c : SlotChange} {s : State} (h : s.decoder.change = some c) :
    (slotAt (resolveChange s) c.slot = slotAt s c.slot ∨ slotAt (resolveChange s) c.slot = c.after) ∧
      ∀ n, n ≠ c.slot → slotAt (resolveChange s) n = slotAt s n := by
  unfold resolveChange
  rw [h]
  dsimp only
  split
  · refine ⟨?_, fun n hn => slotAt_writeSlot_other _ _ hn⟩
    exact (slotAt_writeSlot c.slot c.slot c.after _).imp id fun hw => hw.2.2
  · exact ⟨.inl rfl, fun _ _ => rfl⟩

/-- Settles O57. -/
theorem repeaterModeResetAndPower : Obligations.RepeaterModeResetAndPower := by
  intro passing s
  refine ⟨fun hp hperiod => exec_settles (f := periodExpires passing) rfl hp (if_pos hperiod),
    fun hp => exec_settles (f := leaveRepeater) rfl hp ?_, fun hc => ?_, fun c hc hslot hfree => ?_⟩
  · have hcause : repeaterCause s = true ↔ s.ring.gateNo = 0 ∨ s.ring.restartPeriod.isSome := by
      simp [repeaterCause, hp]
    unfold leaveRepeater
    simp only [hcause]
    rfl
  · refine ⟨congrArg Host.Outcome.next ?_, congrArg Host.Outcome.next ?_⟩
    · unfold holdReset
      rw [resolveChange_none hc]
      rfl
    · unfold losePower
      rw [resolveChange_none hc]
      rfl
  · obtain ⟨hsame, hother⟩ := resolveChange_slotAt hc
    exact ⟨losePower s, holdReset s, rfl, rfl, rfl, rfl, hsame, hother, rfl⟩

/-! ### The cold start -/

/-- Ring-out with nothing to send stays idle. -/
theorem ringOutTake_quiet {x : State} (hf : x.ring.forward = []) (hi : x.ring.insertion = [])
    (ha : x.ring.filled = []) (hj : x.ring.joined = false) : ringOutTake x = x := by
  have hrecord : offeredRecord x = none := if_neg (by simp [hj])
  unfold ringOutTake
  split
  · rfl
  rw [hf]
  dsimp only
  split
  · unfold takeOwn
    rw [hi]
    dsimp only
    rw [ha, hrecord]
  · rfl

/-- No bank is in a state (R166). -/
theorem bankIn_none {t : TableStore} {b : BankState} :
    bankIn t b = none ↔ (bankOf t .x).state ≠ b ∧ (bankOf t .y).state ≠ b := by
  unfold bankIn bankOf
  by_cases hx : t.bankX.state = b <;> by_cases hy : t.bankY.state = b <;> simp [hx, hy]

theorem outOfService_iff {u : State} :
    outOfService u = true ↔
      (bankOf u.store .x).state ≠ .active ∧ (bankOf u.store .y).state ≠ .active ∨
        u.clock.isSet = false ∨ u.store.setup = none ∨
        u.store.setup.map LineSetup.service = some .outService ∨ u.ring.duplicate = true := by
  unfold outOfService
  rw [← bankIn_none]
  cases u.store.setup <;> simp [or_assoc, or_comm, or_left_comm]

/-- A cold start keeps the EMERG pin, and the key slots while none is being changed. -/
theorem coldStart_pins (gateNo : Nat) (passing : Bool) (s : State) :
    (coldStart gateNo passing s).emerg = s.emerg ∧
      (s.decoder.change = none → (coldStart gateNo passing s).keys = s.keys) := by
  refine ⟨?_, fun h => ?_⟩
  · show (resolveChange s).emerg = s.emerg
    rw [resolveChange_eq]
  · show (resolveChange s).keys = s.keys
    rw [resolveChange_none h]

/-- The gate state of a cold start: FREE by the EMERG pin alone, and else OUT_OF_SERVICE, for no fare table
is ACTIVE. -/
theorem coldStart_gateState (gateNo : Nat) (passing : Bool) (s : State) :
    gateState (coldStart gateNo passing s) = if s.emerg then .free else .outOfService := by
  have hemerg := (coldStart_pins gateNo passing s).1
  have hflag : (coldStart gateNo passing s).gate.freeFlag = false := rfl
  cases he : s.emerg with
  | true => exact gateState_free_iff.mpr (.inl (hemerg.trans he))
  | false =>
    refine gateState_outOfService (fun h => ?_) rfl
    rcases gateState_free_iff.mp h with h | h
    · exact Bool.false_ne_true ((hemerg.trans he).symm.trans h)
    · exact Bool.false_ne_true (hflag.symm.trans h)

/-- Settles O58: the cold start, of which the end of its event changes no item but the outputs. -/
theorem coldStartState : Obligations.ColdStartState := by
  refine ⟨fun gateNo passing s => ?_, fun u => ?_⟩
  · obtain ⟨c, hc⟩ : ∃ c, c = coldStart gateNo.toNat passing s := ⟨_, rfl⟩
    obtain ⟨hemerg, hkeys⟩ := coldStart_pins gateNo.toNat passing s
    have hgate := coldStart_gateState gateNo.toNat passing s
    have hjournal : (settle c).journal = State.reset.journal := by rw [settle_journal, hc]; rfl
    rw [← hc] at hemerg hkeys hgate
    have hdark : ∀ sd, sideEnabled c sd = false := fun sd => by
      unfold sideEnabled setupIncludes
      rw [hc]
      rfl
    have hchan : ∀ sd, (settle c).chans.get sd = Channel.cold := fun sd => by
      have hcold : c.chans.get sd = Channel.cold := by rw [hc]; cases sd <;> rfl
      rw [settle_chan, hdark, hcold]
      rfl
    have hchans : (settle c).chans = ⟨Channel.cold, Channel.cold⟩ := by
      have ha := hchan .a
      have hb := hchan .b
      revert ha hb
      cases (settle c).chans
      rintro rfl rfl
      rfl
    have hindicator : (settle c).gate.indicator =
        if s.emerg then ⟨.free, .free⟩ else ⟨.closed, .closed⟩ := by
      have hshown : ∀ sd, (settle c).gate.indicator.get sd =
          if s.emerg then .free else .closed := fun sd => by
        rw [shows_indicator (settle_shows c), settle_indicatorOf]
        unfold indicatorOf
        rw [hgate]
        cases s.emerg <;> rfl
      have ha := hshown .a
      have hb := hshown .b
      revert ha hb
      cases (settle c).gate.indicator
      rintro rfl rfl
      cases s.emerg <;> rfl
    obtain ⟨harb, hhot⟩ : (settle c).arb = State.reset.arb ∧ (settle c).hot = State.reset.hot := by
      have hidle : portAfter (c.arb, c.hot.merge) = (State.reset.arb, .idle) := by rw [hc]; rfl
      obtain ⟨m, hm⟩ := settle_hot_of_noneWaiting (s := c) (by rw [hc]; rfl)
      have hmerge := settle_merge c
      rw [settle_arb, hm, hidle]
      rw [hidle, hm] at hmerge
      have hm' : m = .idle := hmerge
      refine ⟨rfl, ?_⟩
      rw [hm', hc]
      rfl
    have hring : (settle c).ring = c.ring := by
      have hbefore := beforeRingOut_ring c
      rw [settle_ring, ringOutTake_quiet (by rw [hbefore, hc]; rfl) (by rw [hbefore, hc]; rfl)
        (by rw [hbefore, hc]; rfl) (by rw [hbefore, hc]; rfl), hbefore]
    refine ⟨settle c, by rw [hc]; rfl, (settle_gateState c).trans hgate, ?leaf, ?_, ?_, ?_, ?_, ?_, ?_,
      ?_, hindicator, (settle_emerg c).trans hemerg, fun h => (settle_keys c).trans (hkeys h), ?_, ?_,
      ?_, ?_, ?_, ?_, ?_, ?_, ?_, hchans, ?_, ?_, ?_, ?_, ?_, ?_, ?_, ?_, ?_, ?_, ?_, ?_, ?_, ?_, ?_,
      ?_, ?_, ?_, ?_, ?_, ?_, ?_, ?_, ?_, ?_, ?_, ?_, ?_, ?_, harb⟩
    case leaf =>
      rw [(settle_shows c).leaf, settle_gateState, hgate]
      cases s.emerg <;> rfl
    all_goals
      simp only [settle_alarm, settle_freeFlag, settle_queue, settle_reserved, settle_occupancy,
        settle_passTimer, settle_stopTimer, settle_power, settle_clock, settle_taps, settle_contexts,
        settle_sightings, settle_loader, settle_decoder, settle_store, settle_engines,
        settle_ringEngine, hjournal, hhot, hring]
      subst hc
      rfl
  · have hfree : gateState u ≠ .free ↔ u.emerg = false ∧ u.gate.freeFlag = false := by
      rw [ne_eq, gateState_free_iff]
      simp
    rw [← outOfService_iff, ← and_assoc, ← hfree]
    refine ⟨fun h => ⟨by rw [h]; simp, ?_⟩, fun h => gateState_outOfService h.1 h.2⟩
    refine Decidable.byContradiction fun ho => ?_
    unfold gateState at h
    split at h
    · cases h
    split at h
    · cases h
    split at h
    · split at h <;> cases h
    · cases h

end Sys2Proof.Machine

/-! ## The warm restart (O56) -/

namespace Sys2Proof.Machine

/-! ### Both transactions over (R48) -/

@[simp] theorem abandonTap_bystand (sd : Side) (s : State) :
    bystandItems (abandonTap sd s) = bystandItems s := by simp [abandonTap]

@[simp] theorem tearHandOff_bystand (sd : Side) (s : State) :
    bystandItems (tearHandOff sd s) = bystandItems s := by
  unfold tearHandOff
  rw [takeUpMark_bystand, releaseGrantSlot_bystand, releaseJournal_bystand]
  split
  · rw [ownSighting_bystand _ (by simp [tornSighting, makeSighting]), updateContext_bystand]
  · rw [ownSighting_bystand _ (by simp [tornSighting, makeSighting]), createContext_bystand]

@[simp] theorem restartTransaction_bystand (sd : Side) (s : State) :
    bystandItems (restartTransaction sd s) = bystandItems s := by
  unfold restartTransaction
  repeat' split
  all_goals simp

/-- A Tap Controller without a transaction is left alone by what another side sends. -/
theorem ownSighting_cold {y z : Side} {x : Sighting} (hx : x.kind ≠ .intent) {s : State}
    (h : s.taps.get z = Tap.cold) : (ownSighting y x s).taps.get z = Tap.cold := by
  by_cases hz : z = y
  · subst hz
    rw [ownSighting_tap hx, h]
  · have hother : z = y.other := by cases z <;> cases y <;> simp_all [Side.other]
    subst hother
    obtain ⟨table, rule, queue, -, -, hj⟩ := (ownTaken_iff (sd := y) (v := s) hx).mpr rfl
    have hby : (bystanding x rule { s with
        sightings := table, ring := { s.ring with insertion := queue } }).taps = s.taps := by
      unfold bystanding
      split <;> rfl
    have hidle : ∀ t : State, t.taps = s.taps → inFlight t y.other x.uid = false := fun t ht => by
      unfold inFlight
      rw [ht, h]
      rfl
    rw [sideJudged_iff, judgeSide_idle (hidle _ hby)] at hj
    rw [hj, hby, h]

theorem releaseReservation_other {sd : Side} (s : State) :
    (releaseGrantSlot sd (releaseJournal sd s)).taps.get sd.other = s.taps.get sd.other := by
  have hj : ∀ t, (releaseJournal sd t).taps.get sd.other = t.taps.get sd.other := fun t => by
    unfold releaseJournal
    split
    · simp [modRecord, modTap, setTap]
    · rfl
  unfold releaseGrantSlot
  split
  · simp [modRecord, modTap, setTap, hj]
  · exact hj s

theorem offerRecord_taps (r : JournalRecord) (s : State) : (offerRecord r s).taps = s.taps := by
  unfold offerRecord
  split <;> rfl

theorem updateContext_taps (c : Context) (sd : Side) (s : State) :
    (updateContext c sd s).taps = s.taps := by
  unfold updateContext
  dsimp only
  split
  · exact offerRecord_taps _ _
  · rfl

theorem createContext_taps (sd : Side) (s : State) : (createContext sd s).taps = s.taps := by
  have henter : ∀ c t, (enterContext c t).taps = t.taps := fun c t => by
    unfold enterContext
    split <;> rfl
  have hroom : ∀ t, (makeRoom t).taps = t.taps := fun t => by
    unfold makeRoom
    repeat' split
    · rfl
    · exact offerRecord_taps _ _
    · rfl
  unfold createContext
  rw [henter, hroom]
  split
  · exact offerRecord_taps _ _
  · rfl

theorem tearHandOff_cold {sd : Side} {s : State} (h : s.taps.get sd.other = Tap.cold) :
    (tearHandOff sd s).taps.get sd.other = Tap.cold := by
  have hmark : ∀ t, (takeUpMark sd t).taps = t.taps := fun t => by
    unfold takeUpMark
    split
    · rfl
    · rw [cloneParty_taps]
  unfold tearHandOff
  rw [hmark, releaseReservation_other]
  split
  · refine ownSighting_cold (by simp [tornSighting, makeSighting]) ?_
    rw [updateContext_taps, h]
  · refine ownSighting_cold (by simp [tornSighting, makeSighting]) ?_
    rw [createContext_taps, h]

theorem abandonTap_other (sd : Side) (s : State) :
    (abandonTap sd s).taps.get sd.other = s.taps.get sd.other := by
  rw [abandonTap_eq, contextBack_frame]
  show (recordRefusal sd .refused .cardLost (reservationsBack sd s)).taps.get sd.other = _
  rw [recordRefusal_eq]
  simp [reservationsBack]

/-- The end of one side's transaction leaves an idle other side idle. -/
theorem restartTransaction_cold {sd : Side} {s : State} (h : s.taps.get sd.other = Tap.cold) :
    (restartTransaction sd s).taps.get sd.other = Tap.cold := by
  have habandon : (abandonTap sd s).taps.get sd.other = Tap.cold := (abandonTap_other sd s).trans h
  have hclaim : (abandonTap sd (withdrawIntent sd none
      (modTap sd (fun t => { t with hold := none }) s))).taps.get sd.other = Tap.cold := by
    rw [abandonTap_other, withdrawIntent_taps]
    simpa [modTap, setTap] using h
  unfold restartTransaction
  split
  · exact h
  split
  · exact h
  · exact habandon
  · exact habandon
  · exact habandon
  · exact habandon
  · exact habandon
  · exact hclaim
  · exact tearHandOff_cold h
  · exact tearHandOff_cold h
  · split <;> exact h

/-- A reference given back is no concern of a bank at a warm restart, where none stands (R177). -/
theorem restartBank_bankBack (sd : Side) (s : State) (id : BankId) :
    restartBank (bankOf (bankBack sd s) id) = restartBank (bankOf s.store id) := by
  unfold bankBack
  split
  · rfl
  · next id' _ =>
    have hbank : ∀ b : Bank,
        restartBank (if b.state = .draining ∧ b.refs - 1 = 0 then Bank.cold
          else { b with refs := b.refs - 1 }) = restartBank b := fun b => by
      by_cases hlast : b.state = .draining ∧ b.refs - 1 = 0
      · rw [if_pos hlast]
        exact (if_pos hlast.1).symm
      · rw [if_neg hlast]
        rfl
    obtain rfl | rfl : id = id' ∨ id = otherBank id' := by cases id <;> cases id' <;> simp [otherBank]
    · rw [bankOf_setBank, hbank]
    · rw [bankOf_setBank_other]

/-- What stands once a warm restart has ended both transactions, from `m` to `v` (R48). -/
structure TransactionsEnded (m v : State) : Prop where
  standing : standing v = standing m
  lane : laneItems v.gate = laneItems m.gate
  bank : ∀ id, restartBank (bankOf v.store id) = restartBank (bankOf m.store id)
  version : v.hot.version = m.hot.version
  active : activeEntries v.hot = activeEntries m.hot
  sent : v.ring.sent = m.ring.sent
  duplicate : v.ring.duplicate = m.ring.duplicate
  chan : ∀ sd, (v.chans.get sd).state = (m.chans.get sd).state
  taps : v.taps = ⟨Tap.cold, Tap.cold⟩
  engines : v.engines = ⟨none, none⟩

theorem restartTap_eq (sd : Side) (s : State) : restartTap sd s = tapEnded sd (restartTransaction sd s) :=
  tapEnded_eq sd _

theorem transactionsEnded (m : State) :
    TransactionsEnded m (restartTap .b (restartTap .a m)) := by
  obtain ⟨x, hx⟩ : ∃ x, x = restartTransaction .a m := ⟨_, rfl⟩
  obtain ⟨y, hy⟩ : ∃ y, y = restartTransaction .b (tapEnded .a x) := ⟨_, rfl⟩
  have hxi : bystandItems x = bystandItems m := hx ▸ restartTransaction_bystand .a m
  have hyi : bystandItems y = bystandItems (tapEnded .a x) := hy ▸ restartTransaction_bystand .b _
  have hcold : y.taps.get .a = Tap.cold := hy ▸ restartTransaction_cold (sd := .b) rfl
  rw [restartTap_eq .b, restartTap_eq .a, ← hx, ← hy]
  have hstore : y.store = bankBack .a x := congrArg BystandItems.store hyi
  have hsetup : ∀ sd s, standing (tapEnded sd s) = standing s := fun sd s => by
    rw [← tapEnded_eq]
    simp
  constructor
  case standing =>
    have hys : standing y = standing (tapEnded .a x) := congrArg BystandItems.standing hyi
    rw [hsetup, hys, hsetup]
    exact congrArg BystandItems.standing hxi
  case lane => exact (congrArg BystandItems.lane hyi).trans (congrArg BystandItems.lane hxi)
  case bank =>
    intro id
    refine (restartBank_bankBack .b y id).trans ?_
    rw [hstore, restartBank_bankBack, show x.store = m.store from congrArg BystandItems.store hxi]
  case version => exact (congrArg BystandItems.version hyi).trans (congrArg BystandItems.version hxi)
  case active => exact (congrArg BystandItems.active hyi).trans (congrArg BystandItems.active hxi)
  case sent => exact (congrArg BystandItems.sent hyi).trans (congrArg BystandItems.sent hxi)
  case duplicate =>
    exact (congrArg BystandItems.duplicate hyi).trans (congrArg BystandItems.duplicate hxi)
  case chan =>
    have hxc : (bystandItems x).chans = (bystandItems m).chans := congrArg BystandItems.chans hxi
    have hyc : (bystandItems y).chans = (bystandItems x).chans :=
      (congrArg BystandItems.chans hyi).trans rfl
    exact bystandItems_chan (s := m) (u := y) (hyc.trans hxc)
  case taps =>
    show y.taps.set .b Tap.cold = _
    rw [← hcold]
    rfl
  case engines =>
    have he : y.engines = x.engines.set .a none := congrArg BystandItems.engines hyi
    show y.engines.set .b none = _
    rw [he]
    rfl

/-! ### The blocks at a warm restart -/

/-- A load broken off touches the loader, the port, the Table Store and the Hotlist Store alone (R173). -/
theorem breakOff_frame (s : State) :
    breakOff s =
      { s with
        loader := none, arb := (breakOff s).arb, store := (breakOff s).store, hot := (breakOff s).hot } := by
  cases hl : s.loader with
  | none =>
    have hs : breakOff s = s := by
      unfold breakOff
      rw [hl]
    rw [hs, ← hl]
  | some l =>
    rw [breakOff_eq hl]
    unfold loadDiscarded
    cases l.kind <;> rfl

/-- A load broken off reads the loader and the two stores alone. -/
theorem breakOff_stores {s t : State} (hl : t.loader = s.loader) (hs : t.store = s.store)
    (hh : t.hot = s.hot) :
    (breakOff t).store = (breakOff s).store ∧ (breakOff t).hot = (breakOff s).hot := by
  cases h : s.loader with
  | none =>
    unfold breakOff
    rw [hl, h]
    exact ⟨hs, hh⟩
  | some l =>
    rw [breakOff_eq (hl.trans h), breakOff_eq h]
    unfold loadDiscarded
    rw [hs, hh]
    cases l.kind <;> exact ⟨rfl, rfl⟩

/-- A load broken off leaves the view of the hotlist and the local hotlist. -/
theorem breakOff_hot (s : State) :
    (breakOff s).hot.version = s.hot.version ∧ activeEntries (breakOff s).hot = activeEntries s.hot ∧
      (breakOff s).hot.waiting = s.hot.waiting ∧ (breakOff s).hot.localList = s.hot.localList := by
  cases hl : s.loader with
  | none =>
    have hs : breakOff s = s := by
      unfold breakOff
      rw [hl]
    rw [hs]
    exact ⟨rfl, rfl, rfl, rfl⟩
  | some l =>
    rw [breakOff_eq hl]
    unfold loadDiscarded
    cases l.kind with
    | fare => exact ⟨rfl, rfl, rfl, rfl⟩
    | full =>
      have hversion : (setShadow [] s.hot).version = s.hot.version := by rw [setShadow_eq]
      have hwaiting : (setShadow [] s.hot).waiting = s.hot.waiting := by rw [setShadow_eq]
      have hlocal : (setShadow [] s.hot).localList = s.hot.localList := by rw [setShadow_eq]
      exact ⟨hversion, activeEntries_setShadow [] s.hot, hwaiting, hlocal⟩
    | delta => exact ⟨rfl, rfl, rfl, rfl⟩

/-- A load broken off leaves the line setup record. -/
theorem breakOff_setup (s : State) : (breakOff s).store.setup = s.store.setup := by
  unfold breakOff
  split
  · rfl
  · next l _ =>
    unfold discardLoad
    cases l.kind
    · exact setBank_setup _ _ _
    · rfl
    · rfl

/-- The waiting additions taken leave the version and the active bank, and none waits (R174). -/
theorem takeAdditions_view (h : Hotlist) :
    (takeAdditions h).version = h.version ∧ activeEntries (takeAdditions h) = activeEntries h ∧
      (takeAdditions h).waiting = [] := by
  have key : ∀ (us : List Uid) (g : Hotlist),
      (us.foldl (fun h u => addLocal u h) g).version = g.version ∧
        activeEntries (us.foldl (fun h u => addLocal u h) g) = activeEntries g ∧
        (us.foldl (fun h u => addLocal u h) g).waiting = g.waiting := fun us => by
    induction us with
    | nil => exact fun g => ⟨rfl, rfl, rfl⟩
    | cons u rest ih =>
      intro g
      obtain ⟨hv, ha, hw⟩ := ih (addLocal u g)
      have hone : (addLocal u g).waiting = g.waiting := by
        unfold addLocal
        repeat' split
        all_goals rfl
      exact ⟨hv.trans (addLocal_view u g).1, ha.trans (addLocal_view u g).2, hw.trans hone⟩
  exact key h.waiting { h with waiting := [] }

/-- A merge abandoned touches the shadow and the merge alone (R119). -/
theorem abandonMerge_view (h : Hotlist) :
    (abandonMerge h).merge = .idle ∧ (abandonMerge h).version = h.version ∧
      activeEntries (abandonMerge h) = activeEntries h ∧ (abandonMerge h).waiting = h.waiting ∧
      (abandonMerge h).localList = h.localList := by
  unfold abandonMerge
  split
  · next hm => exact ⟨hm, rfl, rfl, rfl, rfl⟩
  · exact ⟨rfl, rfl, rfl, rfl, rfl⟩

/-- The Hotlist Store at a warm restart (R119, R174). -/
def hotRestarted (s : State) : Hotlist := abandonMerge (takeAdditions (breakOff s).hot)

theorem hotRestarted_view (s : State) :
    (hotRestarted s).merge = .idle ∧ (hotRestarted s).waiting = [] ∧
      (hotRestarted s).version = s.hot.version ∧
      activeEntries (hotRestarted s) = activeEntries s.hot ∧
      (s.hot.waiting = [] → (hotRestarted s).localList = s.hot.localList) := by
  obtain ⟨hm, hv, ha, hw, hl⟩ := abandonMerge_view (takeAdditions (breakOff s).hot)
  obtain ⟨hv', ha', hw'⟩ := takeAdditions_view (breakOff s).hot
  obtain ⟨hv'', ha'', hw'', hl''⟩ := breakOff_hot s
  refine ⟨hm, hw.trans hw', hv.trans (hv'.trans hv''), ha.trans (ha'.trans ha''), fun h => hl.trans ?_⟩
  rw [takeAdditions_none (hw''.trans h), hl'']

/-- The state after the blocks have restarted on `w`, where both transactions are over and every grant is
withdrawn (R202). -/
def blocksRestarted (w : State) : State :=
  { w with
    journal := { w.journal with reserved := 0 }, loader := none, ringEngine := none
    gate := { w.gate with passTimer := .stopped, stopTimer := ⟨none, none⟩, reserved := 0 }
    store :=
      { (breakOff w).store with
        bankX := restartBank (breakOff w).store.bankX, bankY := restartBank (breakOff w).store.bankY }
    hot := hotRestarted w
    arb := { tap := ⟨none, none⟩, loader := none, merge := false, inUse := none, mark := .a }
    decoder := { state := .idle, inHand := none, change := none }
    ring :=
      { w.ring with
        forward := [], held := 0, filled := [], sending := none, intentReserved := 0
        repeater := true, restartPeriod := some 2 }
    chans := ⟨restartChannel w.chans.a, restartChannel w.chans.b⟩ }

/-- The warm restart, where no change of a key slot is under way (R202). -/
theorem warmRestart_eq {m : State} (hc : m.decoder.change = none) :
    warmRestart m = blocksRestarted (withdrawAll false (restartTap .b (restartTap .a m))) := by
  obtain ⟨w, hw⟩ : ∃ w, w = withdrawAll false (restartTap .b (restartTap .a m)) := ⟨_, rfl⟩
  obtain ⟨g, hg⟩ : ∃ g, g = restartJournal (restartGate (restartTap .b (restartTap .a m))) := ⟨_, rfl⟩
  have hgw : g =
      { w with
        journal := { w.journal with reserved := 0 }
        gate := { w.gate with passTimer := .stopped, stopTimer := ⟨none, none⟩, reserved := 0 } } := by
    rw [hg, hw]
    rfl
  have hstanding : standing w = standing m := by
    rw [hw]
    simp
  have hchange : w.decoder.change = none :=
    (congrArg (fun x => x.decoder.change) hstanding).trans hc
  have hbroken : (breakOff g).store = (breakOff w).store ∧ (breakOff g).hot = (breakOff w).hot :=
    breakOff_stores (by rw [hgw]) (by rw [hgw]) (by rw [hgw])
  obtain ⟨r, hr⟩ : ∃ r, r = restartStore g := ⟨_, rfl⟩
  have hrg : r =
      { g with
        loader := none
        store :=
          { (breakOff w).store with
            bankX := restartBank (breakOff w).store.bankX
            bankY := restartBank (breakOff w).store.bankY }
        hot := hotRestarted w
        arb := { tap := ⟨none, none⟩, loader := none, merge := false, inUse := none, mark := .a } } := by
    rw [hr]
    unfold restartStore hotRestarted
    rw [breakOff_frame g, hbroken.1, hbroken.2]
    rfl
  have hrc : r.decoder.change = none := by
    rw [hrg, hgw]
    exact hchange
  have hwarm : warmRestart m =
      { restartRing (restartDecoder r) with
        chans := ⟨restartChannel (restartDecoder r).chans.a, restartChannel (restartDecoder r).chans.b⟩ } := by
    rw [hr, hg]
    rfl
  rw [hwarm, ← hw]
  unfold restartDecoder
  rw [resolveChange_none hrc, hrg, hgw]
  rfl

/-- The end of the event of a warm restart finds nothing to give or to send. -/
theorem settle_restarted (w : State) :
    (settle (blocksRestarted w)).ring = (blocksRestarted w).ring ∧
      (settle (blocksRestarted w)).hot = hotRestarted w ∧
      (settle (blocksRestarted w)).arb.inUse = none := by
  obtain ⟨hmerge, hwaiting, -⟩ := hotRestarted_view w
  have hidle : portAfter ((blocksRestarted w).arb, (blocksRestarted w).hot.merge) =
      ((blocksRestarted w).arb, .idle) := by
    rw [show (blocksRestarted w).hot.merge = .idle from hmerge]
    rfl
  obtain ⟨m, hm⟩ := settle_hot_of_noneWaiting (s := blocksRestarted w) hwaiting
  have hsettled := settle_merge (blocksRestarted w)
  rw [hidle, hm] at hsettled
  have hm' : m = .idle := hsettled
  refine ⟨settle_ring_busy (.inr rfl), ?_, ?_⟩
  · rw [hm, hm', ← hmerge]
    rfl
  · rw [settle_arb, hidle]
    rfl

/-- With no transaction at either side, grants withdrawn leave the Tap Controllers and the Recovery Table. -/
theorem withdrawn_taps {v : State} (h : v.taps = ⟨Tap.cold, Tap.cold⟩) :
    (withdrawAll false v).taps = v.taps ∧ (withdrawAll false v).contexts = v.contexts := by
  have hidle : ∀ g ∈ v.gate.queue, anyInFlight { v with gate := { v.gate with queue := [] } } g.uid = false :=
    fun g _ => by
      rw [anyInFlight_false]
      unfold inFlight
      dsimp only
      rw [h]
      exact ⟨rfl, rfl⟩
  obtain ⟨table, queue, hot, he⟩ :=
    giveUpGrants_idle false v.gate.queue { v with gate := { v.gate with queue := [] } } hidle
  have hw : withdrawAll false v = v.gate.queue.foldl (giveUpGrant false)
    { v with gate := { v.gate with queue := [] } } := rfl
  rw [hw, he]
  exact ⟨rfl, rfl⟩

/-- With no transaction and no grant there is nothing to end. -/
theorem restart_nothing {m : State} (ht : m.taps = ⟨Tap.cold, Tap.cold⟩) (hq : m.gate.queue = []) :
    (withdrawAll false (restartTap .b (restartTap .a m))).journal = m.journal ∧
      (withdrawAll false (restartTap .b (restartTap .a m))).sightings = m.sightings ∧
      (withdrawAll false (restartTap .b (restartTap .a m))).contexts = m.contexts ∧
      (withdrawAll false (restartTap .b (restartTap .a m))).ring.insertion = m.ring.insertion := by
  have ha : restartTap .a m = tapEnded .a m :=
    restarts_restartTap (.ended (.inr (.inl (by rw [ht]; rfl))))
  have hb : restartTap .b (tapEnded .a m) = tapEnded .b (tapEnded .a m) :=
    restarts_restartTap (.ended (.inr (.inl (by
      show ((m.taps.set .a Tap.cold).get .b).state = .idle
      rw [ht]
      rfl))))
  rw [ha, hb]
  unfold withdrawAll
  rw [show (tapEnded .b (tapEnded .a m)).gate.queue = [] from hq]
  exact ⟨rfl, rfl, rfl, rfl⟩

/-- Settles O56: the answer leaves, and the blocks restart one after the other. -/
theorem warmRestartActsOnEveryBlock : Obligations.WarmRestartActsOnEveryBlock := by
  intro x s hp hstate hchange hsending hpayload hsent
  obtain ⟨m, hm⟩ : ∃ m : State, m =
      { s with
        ring :=
          { s.ring with
            sending := none
            sent := s.ring.sent ++
              [{ kind := x.kind, length := x.payload.length, crc := x.crc
                 sentAt := s.clock.localMs }] } } := ⟨_, rfl⟩
  obtain ⟨v, hv⟩ : ∃ v, v = restartTap .b (restartTap .a m) := ⟨_, rfl⟩
  obtain ⟨w, hw⟩ : ∃ w, w = withdrawAll false v := ⟨_, rfl⟩
  have hended : TransactionsEnded m v := hv ▸ transactionsEnded m
  have hwarm : warmRestart m = blocksRestarted w := by
    rw [warmRestart_eq (by rw [hm]; exact hchange), hw, hv]
  have hleaves : frameLeaves ⟨x, .answer⟩ s = m := by
    rw [hm]
    unfold frameLeaves enterSent
    dsimp only [modRing]
    rw [if_pos hsent]
    rfl
  have hrestart : sendsRestart s = true := by
    simp [sendsRestart, hstate, hsending, hpayload]
  have hends : frameEnds s = blocksRestarted w := by
    unfold frameEnds
    rw [hsending]
    dsimp only
    rw [if_pos hrestart, hleaves, hwarm]
  have hexec : exec .warmRestart s = .next (settle (blocksRestarted w)) :=
    exec_settles (f := restartLeaves) rfl hp ((if_pos hrestart).trans hends)
  have hexec' : exec .ringOutFrameEnd s = .next (settle (blocksRestarted w)) :=
    exec_settles (f := frameEnds) rfl hp hends
  -- what the grants withdrawn leave of the state
  have hgrants : bystandItems w = { bystandItems { v with gate := { v.gate with queue := [] } } with
      unused := advanced v.gate.queue.length v.journal.counters.unused } :=
    hw ▸ giveUpGrants_bystand false v.gate.queue { v with gate := { v.gate with queue := [] } }
  have hstanding : standing w = standing m := (congrArg BystandItems.standing hgrants).trans hended.standing
  have hlane : laneItems w.gate = { laneItems m.gate with queue := [] } := by
    have h1 : laneItems w.gate = { laneItems v.gate with queue := [] } :=
      congrArg BystandItems.lane hgrants
    rw [h1, hended.lane]
  have hstore : w.store = v.store := congrArg BystandItems.store hgrants
  have hversion : w.hot.version = s.hot.version :=
    (congrArg BystandItems.version hgrants).trans (hended.version.trans (by rw [hm]))
  have hactive : activeEntries w.hot = activeEntries s.hot :=
    (congrArg BystandItems.active hgrants).trans (hended.active.trans (by rw [hm]))
  have hsentList : w.ring.sent = m.ring.sent :=
    (congrArg BystandItems.sent hgrants).trans hended.sent
  have hduplicate : w.ring.duplicate = m.ring.duplicate :=
    (congrArg BystandItems.duplicate hgrants).trans hended.duplicate
  have hengines : w.engines = ⟨none, none⟩ :=
    (congrArg BystandItems.engines hgrants).trans hended.engines
  have hwchans : (bystandItems w).chans = (bystandItems v).chans :=
    (congrArg BystandItems.chans hgrants).trans rfl
  have hchan : ∀ sd, (w.chans.get sd).state = (s.chans.get sd).state := fun sd =>
    (bystandItems_chan (s := v) hwchans sd).trans ((hended.chan sd).trans (by rw [hm]))
  have htaps : w.taps = ⟨Tap.cold, Tap.cold⟩ := by
    rw [hw, (withdrawn_taps hended.taps).1, hended.taps]
  obtain ⟨hring, hhot, harb⟩ := settle_restarted w
  obtain ⟨hmerge, -, hviewVersion, hviewActive, hviewLocal⟩ := hotRestarted_view w
  have hgate := gate_of_laneItems (h := { m.gate with queue := [] }) hlane
  have halarm : w.gate.alarm = m.gate.alarm := by rw [hgate]
  have hfreeFlag : w.gate.freeFlag = m.gate.freeFlag := by rw [hgate]
  have hoccupancy : w.gate.occupancy = m.gate.occupancy := by rw [hgate]
  have hqueue : w.gate.queue = [] := by rw [hgate]
  have hvqueue : v.gate.queue = s.gate.queue :=
    (congrArg Gate.queue hended.lane).trans (by rw [hm]; rfl)
  refine ⟨_, hexec, hexec', ?_, ?_, ?_, ?_, ?_, ?_, harb, ?_, ?_, ?_, ?_, ?_, ?_, ?_, ?_, ?_, ?_, ?_, ?_,
    ?_, ?_, ?_, ?_, ?_, ?_, ?_, ?_, ?_, ?_, ?_, ?_, ?_, fun sd hst hen => ?_, fun hl id => ?_,
    fun hcold hempty => ?_, fun u v' w' hu hv' hw' => ?_⟩
  · rw [settle_taps]; exact htaps
  · rw [settle_engines]; exact hengines
  · rw [settle_ringEngine]; rfl
  · rw [settle_decoder]; rfl
  · rw [settle_loader]; rfl
  · rw [hhot]; exact hmerge
  · rw [settle_queue]; exact hqueue
  · rw [settle_reserved]; rfl
  · rw [settle_passTimer]; rfl
  · rw [settle_stopTimer]; rfl
  · rw [settle_alarm]; exact halarm.trans (by rw [hm])
  · rw [settle_freeFlag]; exact hfreeFlag.trans (by rw [hm])
  · rw [settle_occupancy]; exact hoccupancy.trans (by rw [hm])
  · rw [settle_journal]; rfl
  · rw [hring]; rfl
  · rw [hring]; rfl
  · rw [hring]; rfl
  · rw [hring]; rfl
  · rw [hring]; rfl
  · rw [hring]; rfl
  · rw [hring]; rfl
  · rw [hring]; exact (congrArg Standing.gateNo hstanding).trans (by rw [hm]; rfl)
  · rw [hring]; exact (congrArg Standing.joined hstanding).trans (by rw [hm]; rfl)
  · rw [hring]; exact (congrArg Standing.watch hstanding).trans (by rw [hm]; rfl)
  · rw [hring]; exact hduplicate.trans (by rw [hm])
  · rw [hring]; exact hsentList.trans (by rw [hm])
  · rw [settle_clock]; exact (congrArg Standing.clock hstanding).trans (by rw [hm]; rfl)
  · rw [settle_keys]; exact (congrArg Standing.keys hstanding).trans (by rw [hm]; rfl)
  · rw [settle_store]
    exact (breakOff_setup w).trans ((congrArg Standing.setup hstanding).trans (by rw [hm]; rfl))
  · rw [hhot, hviewVersion, hversion]
  · rw [hhot, hviewActive, hactive]
  · rw [settle_sideEnabled] at hen
    have hawait : (blocksRestarted w).chans.get sd = awaitChannel := by
      have hne : (w.chans.get sd).state ≠ .off := by rw [hchan]; exact hst
      cases sd
      · exact if_neg hne
      · exact if_neg hne
    rw [settle_chan, hen, hawait]
    rfl
  · rw [settle_store]
    have hloader : w.loader = none := (congrArg Standing.loader hstanding).trans (by rw [hm]; exact hl)
    have hwhole : breakOff w = w := by
      unfold breakOff
      rw [hloader]
    have hbank : bankOf (blocksRestarted w).store id = restartBank (bankOf w.store id) := by
      unfold blocksRestarted
      rw [hwhole]
      cases id <;> rfl
    rw [hbank, hstore, hended.bank, hm]
    rfl
  · have hnothing := restart_nothing (m := m) (by rw [hm]; exact hcold) (by rw [hm]; exact hempty)
    rw [← hv, ← hw] at hnothing
    obtain ⟨hj, hsi, hc, hi⟩ := hnothing
    rw [settle_journal, settle_sightings, settle_contexts, hring]
    show w.journal.records = _ ∧ w.journal.counters = _ ∧ w.sightings = _ ∧ w.contexts = _ ∧
      w.ring.insertion = _
    rw [hj, hsi, hc, hi, hm]
    exact ⟨rfl, rfl, rfl, rfl, rfl⟩
  · rw [← hm] at hu
    have hww : w' = w := by
      rw [grantsWithdrawn_iff.mp hw', hw, ← hvqueue, hv, ← restarts_restartTap hv',
        ← restarts_restartTap hu]
      rfl
    rw [settle_contexts, settle_journal, settle_sightings, hring, hhot, hww]
    exact ⟨rfl, rfl, rfl, rfl, hviewLocal⟩

end Sys2Proof.Machine
